-- ==== Sys2Proof/Word.lean ====
section
/-! DEFINITION. The word types of the RL-340: what the manual treats as bits, and nothing else. -/

namespace Sys2Proof

/-- One byte of exchange memory. -/
abbrev Byte := BitVec 8

/-- One 32-bit word of the host port (R182). -/
abbrev Word := BitVec 32

/-- An air frame number, 0..65535, wrapping (R2). -/
abbrev Frame := BitVec 16

/-- A stamp: 16-bit, wrapping, compared for equality alone (R188). -/
abbrev Stamp := BitVec 16

/-- A subscriber tag: the 32-bit address of a subscription on the air. -/
abbrev Tag := BitVec 32

/-- A message reference or a call reference, 0..255, wrapping (R131, R151). -/
abbrev Ref := BitVec 8

/-- The handle a radio link command and its report carry, 0..255, wrapping (R35). -/
abbrev Handle := BitVec 8

end Sys2Proof
end

