-- ==== Sys2Proof/Syntax.lean ====
section
/-! DEFINITION. The commands of the RL-340: one constructor of `Instr` for each row of
spec/opcode_table.json, with the data each carries. -/

namespace Sys2Proof

/-- The two subscriptions. -/
inductive Sub
  | a
  | b
  deriving DecidableEq, Repr

/-- The areas of exchange memory, in the order of their bits in SCAN, PENDING and ENABLE (11.1). -/
inductive Area
  | setup
  | subs
  | cells
  | calls
  | voice
  | outbox
  | inbox
  | fault
  | power
  deriving DecidableEq, Repr

/-- The roles a user of a timing context holds (R19). -/
inductive Role
  | serving
  | target
  | verify
  | search
  deriving DecidableEq, Repr

/-- The reasons of a paging entry (R3). -/
inductive PagingReason
  | call
  | text
  deriving DecidableEq, Repr

/-- A paging entry of a beacon (R3). `reason` is none for a reason that is neither CALL nor TEXT. -/
structure PagingEntry where
  tag    : Tag
  reason : Option PagingReason
  deriving DecidableEq, Repr

/-- An acknowledgement entry of a beacon (R3). The index may lie outside 0..7, and the entry is then
disregarded. -/
structure AckEntry where
  tag   : Tag
  ref   : Ref
  index : Nat
  deriving DecidableEq, Repr

/-- The content of a BEACON report (R3). -/
structure Beacon where
  capture  : Nat
  mismatch : Nat
  code     : BitVec 16
  area     : BitVec 12
  frame    : Frame
  barred   : Bool
  paging   : List PagingEntry
  acks     : List AckEntry
  level    : Nat
  deriving DecidableEq, Repr

/-- The kinds of a control block with the body fields the part reads, as the transceiver delivers them:
a field may lie outside its range, and R9 then discards the block. -/
inductive Control
  | assign        (ref down up effective : Nat)
  | reject        (ref cause : Nat)
  | release       (ref cause : Nat)
  | handoverOrder (code channel down up : Nat) (offset : Int)
  | welcome       (ref : Nat)
  | reportHeard
  | textSegment   (ref index : Nat) (last : Bool) (payload : List Byte)
  | other         (kind : Nat)
  deriving DecidableEq, Repr

/-- A decoded down traffic block (R11). -/
inductive DownBlock
  | voice   (payload : List Byte)
  | control (tag : Tag) (body : Control)
  deriving DecidableEq, Repr

/-- What the host writes to a register: a word and the byte lanes it enables, lane n carrying bits 8n+7..8n (R182, 12.2). -/
structure LaneWord where
  lanes : BitVec 4
  data  : Word
  deriving DecidableEq, Repr

/-- The commands: what the host port, the pins, the transceiver and the part's own clocks and timers do.
Each host write carries the byte lanes it enables (R182). SOFTRESET, START and STOP are the CONTROL writes that enable lane 0,
where SOFTRESET and RUN are; one that does not writes neither bit, and is an IGNORED_REGISTER_WRITE (notes/assumptions/25.md).
Every command's first operand is the time that passes before it, in microseconds while the reference clock
runs and in slow clock ticks in SLEEP (notes/assumptions/1.md). -/
inductive Instr
  | powerOn             (after : Nat)
  | resetPinAssert      (after : Nat)
  | resetPinRelease     (after : Nat)
  | softReset           (after : Nat) (runBit : Bool)
  | start               (after : Nat)
  | runningEntry        (after : Nat)
  | stop                (after : Nat)
  | hostMemoryWrite     (after : Nat) (word : BitVec 14) (lanes : BitVec 4) (data : Word)
  | ignoredRegisterWrite (after : Nat) (word : BitVec 15) (written : LaneWord)
  | scanWrite           (after : Nat) (written : LaneWord)
  | pendingWrite        (after : Nat) (written : LaneWord)
  | enableWrite         (after : Nat) (written : LaneWord)
  | clockLoRead         (after : Nat)
  | subsScanTake        (after : Nat)
  | cellsScanTake       (after : Nat)
  | callsScanTake       (after : Nat)
  | outboxScanTake      (after : Nat)
  | inboxScanTake       (after : Nat)
  | faultScanTake       (after : Nat)
  | noEffectScanTake    (after : Nat) (area : Area)
  | txInhibitAssert     (after : Nat)
  | txInhibitRelease    (after : Nat)
  | commandIssue        (after : Nat) (handle : Handle)
  | occupancySilent     (after : Nat) (handle : Handle)
  | beaconReport        (after : Nat) (handle : Handle) (beacon : Beacon)
  | nothingReport       (after : Nat) (handle : Handle)
  | blockReport         (after : Nat) (handle : Handle) (block : Option DownBlock) (level : Nat)
  | levelReport         (after : Nat) (handle : Handle) (level : Nat)
  | sentReport          (after : Nat) (handle : Handle)
  | planningEvent       (after : Nat) (ctx : Fin 3)
  | windowedPlanningEvent (after : Nat) (ctx : Fin 3)
  | seekPlanningEvent   (after : Nat) (ctx : Fin 3)
  | frameBaseWrite      (after : Nat) (call : Fin 4)
  | downlinkCellWrite   (after : Nat) (call : Fin 4) (frame : Frame)
  | holdoverEntry       (after : Nat) (ctx : Fin 3)
  | loss                (after : Nat) (ctx : Fin 3)
  | windowsMissed       (after : Nat) (sub : Sub)
  | failRun             (after : Nat) (sub : Sub)
  | linkFailure         (after : Nat) (sub : Sub)
  | seekDeadline        (after : Nat) (ctx : Fin 3) (role : Role) (sub : Sub)
  | lostRetry           (after : Nat) (sub : Sub)
  | listenPeriodEnd     (after : Nat) (sub : Sub)
  | ringingExpiry       (after : Nat) (call : Fin 4)
  | accessTimerExpiry   (after : Nat) (call : Fin 4)
  | releaseTimerExpiry  (after : Nat) (call : Fin 4)
  | reportTimerExpiry   (after : Nat) (sub : Sub)
  | leave               (after : Nat) (sub : Sub)
  | arriveTimeout       (after : Nat) (sub : Sub)
  | secondFailure       (after : Nat) (sub : Sub)
  | ackWindowClose      (after : Nat) (sub : Sub)
  | noAck               (after : Nat) (sub : Sub)
  | restartLimit        (after : Nat) (sub : Sub)
  | pauseExpiry         (after : Nat) (sub : Sub)
  | reassemblyTimeout   (after : Nat) (index : Fin 4)
  | napEnd              (after : Nat)
  | slowTimerExpiry     (after : Nat)
  | wakingEnd           (after : Nat)
  deriving DecidableEq, Repr

end Sys2Proof
end

