-- ==== Sys2Proof/Decode.lean ====
section
/-! DEFINITION. The decoder asked of a block: the commands that the table gives bits. -/

namespace Sys2Proof

/-- The command that a word spells by the bits of spec/opcode_table.json. The table gives no row of the RL-340 any bits, so
no word spells a command. -/
def decodeTableWord (_nbits _w : Nat) : Option Instr := none

end Sys2Proof
end

