-- ==== Sys2Proof/Config.lean ====
section
/-! DEFINITION. The free values: what the manual gives an effect without stating its value. None of them
has a body, so no proof can see what it is. -/

namespace Sys2Proof

/-- What the 48-bit local time reads once the count has passed its end, given what the plain count would
be: R17 says only that no service life reaches it (notes/assumptions/6.md). -/
opaque Config.localTimePastEnd : Nat → Nat

/-- The time written into the downlink cell of a suspended voice frame of a call that holds no down slot,
given the predicted start of the frame: R150 writes "the predicted end of the down slot", and there is no
down slot (notes/assumptions/12.md). -/
opaque Config.downEndWithoutSlot : Nat → Nat

end Sys2Proof
end

