-- ==== Sys2Proof/Machine/Arith.lean ====
section
/-! DEFINITION. The manual's arithmetic: frame order, saturating counts, rounding, bit fields (00_scope, R2, R196). -/

namespace Sys2Proof.Machine

/-- Frame `f` is ahead of frame `g`: (f − g) mod 65536 lies in 1..32767 (R2). -/
def ahead (f g : Frame) : Bool := decide (1 ≤ (f - g).toNat) && decide ((f - g).toNat ≤ 32767)

/-- Frame `f` is `g` or ahead of it. -/
def atOrAhead (f g : Frame) : Bool := f == g || ahead f g

/-- The frame `n` frames after `f` (R2). -/
def plusFrames (f : Frame) (n : Nat) : Frame := f + BitVec.ofNat 16 n

/-- A count increased by 1, saturating at `max` (Counts, 00_scope). -/
def satInc (max n : Nat) : Nat := if n < max then n + 1 else n

/-- A sum saturating at `max`. -/
def satAdd (max n k : Nat) : Nat := min max (n + k)

/-- An integer clamped into `lo..hi`. -/
def clampInt (lo hi x : Int) : Int := max lo (min hi x)

/-- Division rounded to the nearest whole number, halves up (00_scope). -/
def divHalfUp (n d : Nat) : Nat := (2 * n + d) / (2 * d)

/-- Bits `lo` upward, `n` of them, of a word (R196). -/
def field (w : Word) (lo n : Nat) : Nat := (w.toNat >>> lo) % 2 ^ n

/-- A field's value read as two's complement of `n` bits (R195). -/
def signedField (w : Word) (lo n : Nat) : Int :=
  let v := field w lo n
  if v < 2 ^ (n - 1) then (v : Int) else (v : Int) - 2 ^ n

/-- A field's value placed at bit `lo` of a word, cut to `n` bits (R195). -/
def place (v lo n : Nat) : Nat := (v % 2 ^ n) <<< lo

/-- A flag placed at bit `lo`. -/
def flag (b : Bool) (lo : Nat) : Nat := if b then 1 <<< lo else 0

/-- The four bytes of a word, lowest address first: byte 0 holds bits 7..0 (chapter 12). -/
def wordByte (w : Word) (i : Nat) : Byte := BitVec.ofNat 8 (field w (8 * i) 8)

/-- The word made of four bytes, lowest address first. -/
def wordOfBytes (b0 b1 b2 b3 : Byte) : Word :=
  BitVec.ofNat 32 (b0.toNat + 2 ^ 8 * b1.toNat + 2 ^ 16 * b2.toNat + 2 ^ 24 * b3.toNat)

/-- The present value of a 0-based list's entry, or the given default. -/
def entry {α : Type} (l : List α) (i : Nat) (d : α) : α := l.getD i d

end Sys2Proof.Machine
end

