-- ==== Sys2Proof/Machine/Params.lean ====
section
/-! DEFINITION. The numbers the chapters state: lengths, limits, timers and the area bits. -/

namespace Sys2Proof.Machine

/-- The bit of an area in SCAN, PENDING and ENABLE (11.1). -/
def areaBit : Area → Nat
  | .setup => 0
  | .subs => 1
  | .cells => 2
  | .calls => 3
  | .voice => 4
  | .outbox => 5
  | .inbox => 6
  | .fault => 7
  | .power => 8

/-- The mask of an area (11.1). -/
def areaMask (a : Area) : BitVec 9 := BitVec.ofNat 9 (2 ^ areaBit a)

/-- An air frame, µs (R1). -/
def frameLen : Nat := 10000
/-- A slot, µs (R1). -/
def slotLen : Nat := 1250
/-- The start of the open section within a frame, and a minislot, µs (R13). -/
def openStart : Nat := 8750
def miniLen : Nat := 250
/-- The issue advance, µs (R35). -/
def issueAdvance : Nat := 200
/-- The retune guard, µs (R40). -/
def retuneGuard : Nat := 100
/-- How long after an occupancy's end its report may come, µs (R48). -/
def reportGrace : Nat := 500
/-- The plan list's capacity (R39). -/
def planCapacity : Nat := 32
/-- A seek listen, and the seek grid's lead, µs (R28). -/
def seekLen : Nat := 11250
def seekLead : Nat := 1000
/-- The wake lead, µs (R32, R173). -/
def wakeLead : Nat := 3000
/-- The capture half-windows, µs (R24). -/
def lockedHalf : Nat := 200
def holdoverHalf : Nat := 1000
def wakeHalf : Nat := 2000
/-- The jitter band, µs (R25). -/
def jitterBand : Nat := 8
/-- Misses to HOLDOVER and to LOSS (R27). -/
def holdoverMisses : Nat := 4
def lossMisses : Nat := 50
/-- A seek's timeout by role, µs (R28). -/
def seekTimeout : Role → Nat
  | .target => 80000
  | .verify => 40000
  | .search => 200000
  | .serving => 0
/-- A seek listen's class by role (R36). -/
def seekClass : Role → Nat
  | .target => 1
  | .verify => 6
  | .search => 7
  | .serving => 7
/-- A role's priority as a seek user, 1 highest (R19). -/
def seekPriority : Role → Nat
  | .target => 1
  | .verify => 2
  | .search => 3
  | .serving => 0
/-- Missed windows to SEARCHING (R68), the idle and connected fail runs (R88). -/
def windowLimit : Nat := 4
def idleFailLimit : Nat := 8
def connectedFailLimit : Nat := 100
/-- The LOST wait, µs (R67). -/
def lostWait : Nat := 30000000
/-- A listen period, frames (R71). -/
def listenFrames : Nat := 200
/-- A barred mark and the two quiet marks, µs (R95, R96). -/
def barredTime : Nat := 300000000
def quietReported : Nat := 2000000
def quietVerify : Nat := 10000000
/-- Freshness, in evaluations (R99). -/
def freshEvals : Nat := 8
/-- The speed class's span, µs (R105). -/
def speedSpan : Nat := 60000000
/-- The history list's capacity (R104). -/
def historyMax : Nat := 8
/-- Report timer, heard report timer, frames, and report sends (R112, R114, R115). -/
def reportFrames : Nat := 20
def heardFrames : Nat := 100
def reportSends : Nat := 3
/-- ARRIVAL frames, the ARRIVE limit, frames after the lock frame (R120). -/
def arrivalMax : Nat := 4
def arriveListen : Nat := 5
def arriveLimit : Nat := 6
/-- The reversion deadline after the leave time, µs (R123). -/
def reversionTime : Nat := 200000
/-- The ringing expiry, µs (R139). -/
def ringTime : Nat := 30000000
/-- Access and release timers, frames; access attempts; release sends (R142, R143). -/
def accessFrames : Nat := 20
def releaseFrames : Nat := 20
def accessMax : Nat := 4
def releaseMax : Nat := 3
/-- Text: message and segment lengths, attempts, restarts, the acknowledgement window and its close, frames, the pause
timer and the reassembly timeout, µs (R151, R153, R15, R156, R158, R161, R162, R167). -/
def messageMax : Nat := 176
def segmentLen : Nat := 22
def attemptMax : Nat := 4
def restartMax : Nat := 4
def ackFrames : Nat := 4
def ackClose : Nat := 6
def pauseTime : Nat := 60000000
def reasmTime : Nat := 2000000
/-- The gaps of the sleep decision, µs (R171). -/
def sleepGap : Nat := 20000
def napGap : Nat := 2000
/-- WAKING, µs (R175). -/
def wakingTime : Nat := 3000
/-- The drift estimator's least accumulated sleep and greatest deviation, µs, and the estimate's bound (R176, R177). -/
def driftSleep : Nat := 200000
def driftDeviation : Nat := 1000
def driftMax : Int := 3200
/-- The widths counts saturate at (R195). -/
def max8 : Nat := 255
def max16 : Nat := 65535
def max32 : Nat := 4294967295
def max48 : Nat := 281474976710655
/-- IDENT (R190). -/
def identWord : Word := 0x03400001
/-- Reference cycles in a microsecond (R17). -/
def cyclesPerMicro : Nat := 26

end Sys2Proof.Machine
end

