-- ==== Sys2Proof/Machine/State.lean ====
section
/-! DEFINITION. The state of the RL-340, block by block, as plain data, and its value after a reset. Part-written
exchange memory is held as the typed fields of the records of chapters 4 to 12 (the words the host reads are
computed from them in Machine/View.lean); host-written exchange memory is a list of bytes. -/

namespace Sys2Proof.Machine

/-! ### Outcomes that stop -/

/-- Reasons the machine stops with a fault. There is none: a dropped host write is recorded in the fault record
and the part goes on (R183), and every other rule of the manual gives an effect. Nothing raises a fault; safe. -/
inductive Fault
  deriving DecidableEq, Repr

/-- Reasons a command is refused. -/
inductive Refusal
  /-- Raised by an arm of `exec` whose command has no meaning yet, with the row's mnemonic; safe. No arm of this
  model raises it. -/
  | notModelled (mnemonic : String)
  deriving DecidableEq, Repr

/-! ### Shapes -/

/-- One value for each subscription. -/
structure Pair (α : Type) where
  a : α
  b : α
  deriving DecidableEq, Repr

/-- The two values' reader. -/
def Pair.get {α : Type} (p : Pair α) : Sub → α
  | .a => p.a
  | .b => p.b

/-- The two values' writer. -/
def Pair.set {α : Type} (p : Pair α) (x : Sub) (v : α) : Pair α :=
  match x with
  | .a => { p with a := v }
  | .b => { p with b := v }

/-- The key of a cell: its channel and its code (2.2). -/
structure Key where
  channel : BitVec 10
  code    : BitVec 16
  deriving DecidableEq, Repr

/-! ### Exchange memory and the host port (chapter 11) -/

/-- The state of the part as CONTROL shows it (11.1). -/
inductive RunState
  | stopped
  | starting
  | running
  deriving DecidableEq, Repr

/-- The fault record (R183). -/
structure FaultRecord where
  held   : Bool
  stamp  : Stamp
  offset : BitVec 16
  area   : Option Area
  lanes  : BitVec 4
  time   : Nat
  drops  : Nat
  change : BitVec 32
  deriving DecidableEq, Repr

/-- The host bus port and the host-written exchange memory. -/
structure Exm where
  /-- The host-written bytes of exchange memory, addresses strictly rising, no byte 0 (R181, R194). -/
  mem      : List Host.Cell
  run      : RunState
  /-- The setup result: set for BAD_VERSION (R192). -/
  badSetup : Bool
  /-- The PENDING register (R187). -/
  attn     : BitVec 9
  /-- The ENABLE register (R187). -/
  enable   : BitVec 9
  /-- The scan-pending mask (R185). -/
  scan     : BitVec 9
  /-- The clock latch, read as CLOCK_HI (R190). -/
  latch    : BitVec 16
  fault    : FaultRecord
  /-- The data of the last register read of the command table, CLOCK_LO (R190). -/
  readData : Word
  /-- A CONTROL write clearing RUN, held in SLEEP or WAKING until RUN (R174, R175). -/
  heldStop : Bool
  deriving DecidableEq, Repr

/-! ### Timing unit (chapter 2) -/

inductive CtxState
  | free
  | seek
  | locked
  | holdover
  deriving DecidableEq, Repr

/-- A user of a timing context (R19), with the deadline of its seek while the seek runs (R28, R29). -/
structure User where
  role     : Role
  sub      : Sub
  deadline : Option Nat
  deriving DecidableEq, Repr

/-- A pending slot assignment (R34), with the call it is for. -/
structure Staged where
  call  : Fin 4
  sub   : Sub
  down  : Nat
  up    : Nat
  frame : Frame
  deriving DecidableEq, Repr

/-- A first planning event still to be raised (R31): from SEEK for a frame, or on becoming CONTINUOUS. -/
inductive FirstEvent
  | seek (frame : Frame)
  | resume
  deriving DecidableEq, Repr

/-- An inhibit hold (R54): its release frame, and whether the hold still waits for a planning event. -/
structure Hold where
  release : Frame
  waiting : Bool
  deriving DecidableEq, Repr

/-- A MEASURE granted in a frame of a serving context, for a subscription's record and the key it then held (R89, R92). -/
structure Measured where
  sub    : Sub
  frame  : Frame
  record : Fin 18
  key    : Key
  deriving DecidableEq, Repr

/-- A timing context (R18). `alloc` numbers its allocations (R19); `seekEntry` and `listen` are the seek grid's
origin less 1,000 µs and the next listen to be requested (R28); `captureTime` is the capture time of the anchor frame's beacon
(R1, R23); `measured` holds the MEASUREs granted in frames that no event
has passed, for the measurement unit (R89). -/
structure Ctx where
  state       : CtxState
  key         : Key
  users       : List User
  continuous  : Bool
  anchorTime  : Nat
  anchorFrame : Frame
  captureTime : Nat
  misses      : Nat
  streakNeg   : Bool
  streak      : Nat
  halfWindow  : Nat
  wakeMark    : Bool
  lastPlanned : Option Frame
  staged      : Option Staged
  alloc       : Nat
  first       : Option FirstEvent
  seekEntry   : Nat
  listen      : Nat
  hold        : Option Hold
  measured    : List Measured
  deriving DecidableEq, Repr

/-- A deferred allocation request (R22). -/
structure Deferred where
  role : Role
  sub  : Sub
  key  : Key
  deriving DecidableEq, Repr

/-- The timing unit. `refCycles` counts the reference cycles within the current microsecond (R17); `freed` is set
within a step when a context goes FREE and is clear between steps. -/
structure Tmu where
  localTime : Nat
  refCycles : Nat
  ctx       : Vector Ctx 3
  deferred  : List Deferred
  freed     : Bool
  deriving DecidableEq, Repr

/-! ### Radio planner (chapter 3) -/

/-- The kinds of an occupancy (R36). -/
inductive Kind
  | beacon
  | paging
  | seek
  | rxVoice
  | rxControl
  | measure
  | txVoice
  | txStolen
  | txOpen
  | txArrival
  deriving DecidableEq, Repr

/-- What a requester wants of an occupancy. -/
inductive Use
  /-- a paging window (R68) -/
  | window
  /-- the serving beacon of a subscription holding a call (R36) -/
  | serving
  /-- a beacon heard for the text unit (R69) -/
  | text
  /-- the target beacon or control listen of ARRIVE (R120) -/
  | target
  /-- reversion listening (R123) -/
  | reversion
  /-- a listen of the seek grid (R28) -/
  | seek
  /-- a seek's own listen for a beacon of a LOCKED or HOLDOVER context (R29) -/
  | seekBeacon
  /-- a call's listen or send -/
  | call
  /-- a listen period's control listen (R71) -/
  | listen
  /-- a measurement or a probe (R90, R91) -/
  | measure
  /-- an open-section send or an ARRIVAL -/
  | send
  deriving DecidableEq, Repr

/-- A requester's own request for an occupancy (R38, R45). -/
structure Own where
  kind : Kind
  cls  : Nat
  use  : Use
  deriving DecidableEq, Repr

/-- The uplink blocks (R12), less the sender's tag. -/
inductive Uplink
  | voice          (payload : List Byte)
  | silence
  | accessDial     (ref : Ref) (dial : List Byte)
  | accessAnswer   (ref : Ref)
  | accessDecline  (ref : Ref)
  | textSegment    (ref : Ref) (index : Nat) (last : Bool) (payload : List Byte)
  /-- `waiter` is the reassembly context whose last segment this receipt answers (R165). -/
  | segmentReceipt (ref : Ref) (index : Nat) (waiter : Option (Fin 4))
  | report         (code : BitVec 16) (difference level : Nat)
  | arrival        (ref : Ref)
  | revertNotice   (ref : Ref)
  | releaseRequest (ref : Ref)
  deriving DecidableEq, Repr

/-- The content of an occupancy (R35): a listen's purpose, a send's block, or the record a MEASURE measures. -/
inductive Content
  | beacon
  | block
  /-- the measured key, and the host record whose probe this is, if it is one (R93) -/
  | level (key : Key) (probe : Option (Fin 18))
  | send  (tag : Tag) (block : Uplink)
  deriving DecidableEq, Repr

/-- An occupancy (R35). `call` is the call context a call's occupancy belongs to. -/
structure Occ where
  handle  : Handle
  kind    : Kind
  cls     : Nat
  ctx     : Fin 3
  alloc   : Nat
  frame   : Frame
  slot    : Nat
  mini    : Nat
  channel : BitVec 10
  start   : Int
  stop    : Int
  issue   : Int
  content : Content
  who     : Pair (Option Own)
  call    : Option (Fin 4)
  started : Bool
  deriving DecidableEq, Repr

/-- The purposes of a LISTEN command (R47). -/
inductive Purpose
  | beacon
  | block
  | level
  deriving DecidableEq, Repr

/-- The commands of the radio link port (R47). -/
inductive RadioCommand
  | listen (handle : Handle) (channel : BitVec 10) (start length : Int) (purpose : Purpose)
  | send   (handle : Handle) (channel : BitVec 10) (start : Int) (tag : Tag) (block : Uplink)
  | idle   (handle : Handle)
  | idleAll
  deriving DecidableEq, Repr

/-- The radio planner. `sent` lists the commands sent over the radio link port since the last reset, newest first;
`idleDue` says that the next LISTEN or SEND is to be preceded by IDLE naming all (R56); `left` is set within a step
when an occupancy leaves the plan list and is clear between steps. -/
structure Rpl where
  plan       : List Occ
  nextHandle : Handle
  inhibit    : Bool
  totalSilent : Nat
  runSilent  : Nat
  linkChange : BitVec 32
  idleDue    : Bool
  sent       : List RadioCommand
  left       : Bool
  deriving DecidableEq, Repr

/-! ### Subscription controller (chapter 4) -/

inductive SubState
  | off
  | searching
  | camped
  | connected
  | moving
  | lost
  deriving DecidableEq, Repr

inductive ServiceCause
  | none
  | enabled
  | windowsMissed
  | cellLost
  | failRun
  | linkLost
  | handoverLost
  | noCells
  | notFound
  deriving DecidableEq, Repr

inductive SpeedClass
  | normal
  | medium
  | high
  deriving DecidableEq, Repr

inductive ChangeKind
  | reselect
  | handover
  deriving DecidableEq, Repr

/-- An entry of the history list (R104). -/
structure HistoryEntry where
  time : Nat
  old  : BitVec 16
  new  : BitVec 16
  kind : ChangeKind
  deriving DecidableEq, Repr

/-- The part-written half of a subscription record (R58, 12.2). -/
structure SubRec where
  state         : SubState
  cause         : ServiceCause
  speed         : SpeedClass
  areaFlag      : Bool
  serving       : Option (Fin 18)
  servingCode   : BitVec 16
  servingArea   : BitVec 12
  areaStamp     : Stamp
  prevArea      : Option (BitVec 12)
  lending       : Nat
  missed        : Nat
  lastReason    : Option PagingReason
  listenEnd     : Option Frame
  pagings       : Nat
  lastPaging    : Nat
  missedCalls   : Nat
  reasmBusy     : Nat
  handovers     : Nat
  reverts       : Nat
  drops         : Nat
  reselections  : Nat
  evals         : Nat
  history       : List HistoryEntry
  change        : BitVec 32
  deriving DecidableEq, Repr

/-- The host-written half of a subscription record as taken (R57). `cycle` is the paging cycle in frames. -/
structure SubSettings where
  enable : Bool
  tag    : Tag
  cycle  : Nat
  offset : Nat
  tmin   : Nat
  tweak  : Nat
  hw     : Nat
  tfail  : Nat
  margin : Nat
  dwell  : Nat
  k      : Nat
  ack    : Stamp
  deriving DecidableEq, Repr

/-- A search pass (R64, R65): the records still to try, the attempt under way, the records pre-empted once, and
whether a CELLS scan has changed the table during the pass. -/
structure Search where
  rest    : List (Fin 18)
  current : Option (Fin 18 × Key)
  again   : List (Fin 18)
  changed : Bool
  deriving DecidableEq, Repr

/-- The subscription controller's state for one subscription. `window` is the paging window named to the serving
context (R68); `areaKnown` says that the subscription has camped since START or since it last went OFF (R73). -/
structure SbcX where
  part      : SubRec
  set       : SubSettings
  disableHeld : Bool
  search    : Option Search
  lostRetry : Option Nat
  window    : Option Frame
  areaKnown : Bool
  deriving DecidableEq, Repr

/-! ### Cell measurement unit (chapter 5) -/

inductive CellRole
  | none
  | neighbour
  | serving
  | target
  deriving DecidableEq, Repr

/-- A cell record (R77, 12.3), with the offset O as taken (R76) and the probe stamp of a pending probe (R93). A mark
of 0 is none; `level` has a value only while `count` is above 0 and is held 0 otherwise. -/
structure CellRec where
  role        : CellRole
  key         : Key
  level       : Nat
  lastSample  : Nat
  lastTime    : Nat
  count       : Nat
  evalNo      : Nat
  dwell       : Nat
  weakLive    : Bool
  weakSeen    : Bool
  weakTaken   : Stamp
  failRun     : Nat
  barredUntil : Nat
  quietUntil  : Nat
  syncRejects : Nat
  probeTaken  : Stamp
  probeLevel  : Option Nat
  change      : BitVec 32
  offset      : Int
  probe       : Option Stamp
  deriving DecidableEq, Repr

/-- The cell table of one subscription with its measurement pointer (R76, R77, R89). -/
structure CellTable where
  recs    : Vector CellRec 18
  pointer : Fin 18
  deriving DecidableEq, Repr

/-! ### Mobility unit (chapters 6 and 7) -/

/-- The states of a handover machine, EXECUTING by its phases (R111). -/
inductive MachineState
  | idle
  | watch
  | reported
  | leave
  | acquire
  | arrive
  | reverting
  deriving DecidableEq, Repr

/-- A trigger (R103): the candidate and the report values. -/
structure Trigger where
  index      : Fin 18
  key        : Key
  difference : Nat
  level      : Nat
  deriving DecidableEq, Repr

/-- A HANDOVER ORDER as taken (R116). -/
structure Order where
  key    : Key
  down   : Nat
  up     : Nat
  offset : Int
  deriving DecidableEq, Repr

/-- A handover machine (R111), with the area code of the found target beacon (R119), the order frame (R117) and the
up slots it has claimed (R113). -/
structure HoMachine where
  state      : MachineState
  candidate  : Option (Key × Fin 18)
  sends      : Nat
  heard      : Bool
  expiry     : Option Frame
  latest     : Option Trigger
  order      : Option Order
  oldCtx     : Option (Fin 3)
  orderFrame : Option Frame
  leaveTime  : Nat
  lock       : Option Frame
  arrivals   : Nat
  area       : Option (BitVec 12)
  claims     : List (Frame × Uplink)
  deriving DecidableEq, Repr

/-- The mobility unit's state for one subscription that is not in exchange memory: the reselection in hand and the
key set aside (R106, R109), and the handover machine. -/
structure MbuX where
  inHand   : Option (Key × Fin 18)
  setAside : Option Key
  machine  : HoMachine
  deriving DecidableEq, Repr

/-! ### Call unit (chapter 8) -/

inductive CallResult
  | ok
  | busyRadio
  | noService
  | wrongState
  | badRequest
  deriving DecidableEq, Repr

inductive CallState
  | free
  | ringing
  | dialling
  | answering
  | active
  | moving
  | releasing
  | ended
  deriving DecidableEq, Repr

inductive CallCause
  | none
  | stopped
  | noResponse
  | localRelease
  | remoteRelease
  | rejected
  | declined
  | notAnswered
  | disabled
  | handoverLost
  | linkLost
  deriving DecidableEq, Repr

inductive UpOutcome
  | none
  | taken
  | sent
  | missing
  | stolen
  | lent
  | inhibited
  | suspended
  | dropped
  deriving DecidableEq, Repr

inductive DownOutcome
  | none
  | received
  | bad
  | lost
  | stolen
  | lent
  | suspended
  deriving DecidableEq, Repr

/-- The uplink counts of a call context (R131). -/
structure UpCounts where
  sent      : Nat
  missing   : Nat
  stolen    : Nat
  lent      : Nat
  inhibited : Nat
  suspended : Nat
  dropped   : Nat
  deriving DecidableEq, Repr

/-- The downlink counts of a call context (R131). -/
structure DownCounts where
  received  : Nat
  bad       : Nat
  lost      : Nat
  stolen    : Nat
  lent      : Nat
  suspended : Nat
  deriving DecidableEq, Repr

/-- An uplink status entry (R149). -/
structure UpEntry where
  frame   : Frame
  outcome : UpOutcome
  deriving DecidableEq, Repr

/-- The part-written half of a call context (R131, 12.4). A slot of 0 is none. -/
structure CallRec where
  taken     : Stamp
  result    : CallResult
  state     : CallState
  owner     : Sub
  cause     : CallCause
  causeByte : BitVec 8
  ref       : Ref
  down      : Nat
  up        : Nat
  epoch     : BitVec 8
  baseFrame : Frame
  baseTime  : Nat
  startTime : Nat
  endTime   : Nat
  ups       : UpCounts
  downs     : DownCounts
  status    : Vector UpEntry 8
  change    : BitVec 32
  deriving DecidableEq, Repr

/-- When the next send of a sequence is planned. -/
inductive NextSend
  /-- for the frame the next planning event offers -/
  | nextEvent
  /-- for this frame, or the first frame ahead of it that is offered -/
  | atFrame (frame : Frame)
  /-- until an up slot is in force (R127) -/
  | waiting
  /-- no further send -/
  | none
  deriving DecidableEq, Repr

/-- The access of a DIALLING or ANSWERING call (R142): the attempts made, the next one, and F1. -/
structure Access where
  dial     : Bool
  attempts : Nat
  next     : NextSend
  first    : Option Frame
  deriving DecidableEq, Repr

/-- The release of a RELEASING call (R143): the sends made, the next one, and G1. -/
structure Release where
  sends : Nat
  next  : NextSend
  first : Option Frame
  deriving DecidableEq, Repr

/-- A voice frame whose downlink cell is still to be written (R150): its frame, the context that offered it with its
allocation, the down slot (0 when the call holds none), the end of the down slot as predicted at the planning event, the
epoch, and its outcome once it is known. -/
structure DownPending where
  frame   : Frame
  ctx     : Fin 3
  alloc   : Nat
  slot    : Nat
  planned : Nat
  epoch   : BitVec 8
  outcome : Option (DownOutcome × List Byte)
  deriving DecidableEq, Repr

/-- A downlink voice cell (R150, 12.4). -/
structure DownCell where
  frame   : Frame
  outcome : DownOutcome
  epoch   : BitVec 8
  length  : Nat
  time    : Nat
  payload : List Byte
  change  : BitVec 32
  deriving DecidableEq, Repr

/-- A call context: the record, its downlink voice cells, and the call unit's working state: the notify-uplink flag
as taken, the copied dial block, the ringing expiry, the access and the release, the voice frames whose frame base is
still to be written (R148), and the downlink writes still to be made. -/
structure Call where
  part    : CallRec
  cells   : Vector DownCell 8
  notify  : Bool
  dial    : List Byte
  ring    : Option Nat
  access  : Option Access
  release : Option Release
  bases   : List Frame
  pends   : List DownPending
  deriving DecidableEq, Repr

/-- The call unit. `decline` is the ACCESS (DECLINE) kept for each subscription (R139). -/
structure Clu where
  calls   : Vector Call 4
  nextRef : Pair Ref
  decline : Pair (Option Ref)
  deriving DecidableEq, Repr

/-! ### Text unit (chapter 9) -/

inductive OutResult
  | ok
  | badLength
  | noSubscription
  | wrongState
  | badRequest
  deriving DecidableEq, Repr

inductive OutState
  | empty
  | queued
  | sending
  | paused
  | sent
  | failed
  | withdrawn
  deriving DecidableEq, Repr

inductive FailCause
  | none
  | noAck
  | noService
  | restartLimit
  | stopped
  deriving DecidableEq, Repr

/-- The part-written half of an outbox slot (R151, 12.5), with the copied message and the notify-each-segment flag as
taken (R153). -/
structure OutSlot where
  taken     : Stamp
  result    : OutResult
  state     : OutState
  cause     : FailCause
  owner     : Sub
  withdraw  : Bool
  late      : Bool
  ref       : Ref
  segments  : Nat
  acked     : Nat
  attempts  : Nat
  restarts  : Nat
  queued    : Nat
  final     : Nat
  change    : BitVec 32
  body      : List Byte
  notify    : Bool
  deriving DecidableEq, Repr

/-- A segment in flight (R155): its TX-OPEN's handle and frame, and whether it ended DONE. -/
structure Flight where
  handle : Handle
  frame  : Frame
  sent   : Bool
  deriving DecidableEq, Repr

/-- When the head's current segment is sent (R155): `exhausted` after a failed fourth attempt (R158). -/
inductive SendPlan
  | none
  | nextEvent
  | atFrame (frame : Frame)
  | exhausted
  deriving DecidableEq, Repr

/-- The send side of one subscription: its send queue and next message ref (R151, R152), the segment in flight, the
head's send frame, whether a segment was sent under the head's ref (R162), and the pause expiry (R161). -/
structure SendSide where
  queue   : List (Fin 8)
  nextRef : Ref
  flight  : Option Flight
  plan    : SendPlan
  sentRef : Bool
  pause   : Option Nat
  deriving DecidableEq, Repr

inductive ReasmState
  | idle
  | collecting
  | completeWaiting
  | deliveredUnacked
  deriving DecidableEq, Repr

/-- A reassembly context (R163). -/
structure Reasm where
  state    : ReasmState
  sub      : Sub
  ref      : Ref
  segs     : Vector (Option (List Byte)) 8
  last     : Option (Fin 8)
  lastTime : Nat
  complete : Nat
  deriving DecidableEq, Repr

/-- The part-written half of an inbox slot (R168, 12.5), with the release stamp as taken. -/
structure InSlot where
  fill    : Stamp
  sub     : Sub
  ref     : Ref
  length  : Nat
  segments : Nat
  time    : Nat
  body    : List Byte
  change  : BitVec 32
  release : Stamp
  deriving DecidableEq, Repr

/-- A receipt to be requested at the next planning event of its subscription's serving context (R164). -/
structure Receipt where
  sub    : Sub
  ref    : Ref
  index  : Nat
  waiter : Option (Fin 4)
  deriving DecidableEq, Repr

/-- The text unit. -/
structure Txu where
  slots    : Vector OutSlot 8
  side     : Pair SendSide
  reasm    : Vector Reasm 4
  inbox    : Vector InSlot 8
  receipts : List Receipt
  deriving DecidableEq, Repr

/-! ### Power controller (chapter 10) -/

inductive Power
  | run
  | nap
  | sleep
  | waking
  deriving DecidableEq, Repr

inductive Permit
  | none
  | nap
  | full
  deriving DecidableEq, Repr

/-- The power controller: the POWER record (R178), the slow timer with its target and the drift estimate it was
programmed with (R173, R175), the accumulated sleep (R176), the settings held from START (R180), whether a drift
sample has been handed for this wake (R33), and the end of WAKING (R175). `maxSleep` is in seconds. -/
structure Pwc where
  state      : Power
  sleeps     : Nat
  totalSleep : Nat
  lastSleep  : Nat
  drift      : Int
  wideWakes  : Nat
  change     : BitVec 32
  timer      : Nat
  target     : Nat
  usedDrift  : Int
  accum      : Nat
  permit     : Permit
  maxSleep   : Nat
  sampled    : Bool
  wakeEnd    : Nat
  deriving DecidableEq, Repr

/-! ### Pins and the whole -/

/-- The input pins the commands change, as they stand: TXINHIBIT asserted, RESET asserted. -/
structure Pins where
  txInhibit : Bool
  resetHeld : Bool
  deriving DecidableEq, Repr

/-- The state of the part, and the queue of commands waiting, first in, first out. -/
structure State where
  exm     : Exm
  tmu     : Tmu
  rpl     : Rpl
  sbc     : Pair SbcX
  cmu     : Pair CellTable
  mbu     : Pair MbuX
  clu     : Clu
  txu     : Txu
  pwc     : Pwc
  pins    : Pins
  pending : List Instr
  deriving DecidableEq, Repr

/-! ### Reset values -/

/-- The key of a FREE context and of a record never taken. -/
def Key.zero : Key := { channel := 0, code := 0 }

def FaultRecord.reset : FaultRecord :=
  { held := false, stamp := 0, offset := 0, area := none, lanes := 0, time := 0, drops := 0, change := 0 }

/-- The host port after a reset (R194). -/
def Exm.reset : Exm :=
  { mem := [], run := .stopped, badSetup := false, attn := 0, enable := 0, scan := 0, latch := 0,
    fault := FaultRecord.reset, readData := 0, heldStop := false }

/-- A timing context after a reset, and after it goes FREE (R18). -/
def Ctx.reset : Ctx :=
  { state := .free, key := Key.zero, users := [], continuous := false, anchorTime := 0, anchorFrame := 0,
    captureTime := 0, misses := 0, streakNeg := false, streak := 0, halfWindow := 200, wakeMark := false, lastPlanned := none,
    staged := none, alloc := 0, first := none, seekEntry := 0, listen := 0, hold := none, measured := [] }

def Tmu.reset : Tmu :=
  { localTime := 0, refCycles := 0, ctx := Vector.replicate 3 Ctx.reset, deferred := [], freed := false }

/-- The radio planner after a reset (R56). -/
def Rpl.reset : Rpl :=
  { plan := [], nextHandle := 0, inhibit := false, totalSilent := 0, runSilent := 0, linkChange := 0,
    idleDue := true, sent := [], left := false }

def SubRec.reset : SubRec :=
  { state := .off, cause := .none, speed := .normal, areaFlag := false, serving := none, servingCode := 0,
    servingArea := 0, areaStamp := 0, prevArea := none, lending := 0, missed := 0, lastReason := none,
    listenEnd := none, pagings := 0, lastPaging := 0, missedCalls := 0, reasmBusy := 0, handovers := 0,
    reverts := 0, drops := 0, reselections := 0, evals := 0, history := [], change := 0 }

/-- The settings held before any take: what a cleared host half is taken as (R57). -/
def SubSettings.reset : SubSettings :=
  { enable := false, tag := 0, cycle := 32, offset := 0, tmin := 0, tweak := 0, hw := 0, tfail := 0, margin := 0,
    dwell := 1, k := 0, ack := 0 }

def SbcX.reset : SbcX :=
  { part := SubRec.reset, set := SubSettings.reset, disableHeld := false, search := none, lostRetry := none,
    window := none, areaKnown := false }

def CellRec.reset : CellRec :=
  { role := .none, key := Key.zero, level := 0, lastSample := 0, lastTime := 0, count := 0, evalNo := 0, dwell := 0,
    weakLive := false, weakSeen := false, weakTaken := 0, failRun := 0, barredUntil := 0, quietUntil := 0,
    syncRejects := 0, probeTaken := 0, probeLevel := none, change := 0, offset := 0, probe := none }

def CellTable.reset : CellTable :=
  { recs := Vector.replicate 18 CellRec.reset, pointer := 0 }

/-- A handover machine in IDLE with no working state (R111, R130). -/
def HoMachine.reset : HoMachine :=
  { state := .idle, candidate := none, sends := 0, heard := false, expiry := none, latest := none, order := none,
    oldCtx := none, orderFrame := none, leaveTime := 0, lock := none, arrivals := 0, area := none, claims := [] }

def MbuX.reset : MbuX :=
  { inHand := none, setAside := none, machine := HoMachine.reset }

def UpCounts.zero : UpCounts :=
  { sent := 0, missing := 0, stolen := 0, lent := 0, inhibited := 0, suspended := 0, dropped := 0 }

def DownCounts.zero : DownCounts :=
  { received := 0, bad := 0, lost := 0, stolen := 0, lent := 0, suspended := 0 }

def UpEntry.empty : UpEntry := { frame := 0, outcome := .none }

def CallRec.reset : CallRec :=
  { taken := 0, result := .ok, state := .free, owner := .a, cause := .none, causeByte := 0, ref := 0, down := 0,
    up := 0, epoch := 0, baseFrame := 0, baseTime := 0, startTime := 0, endTime := 0, ups := UpCounts.zero,
    downs := DownCounts.zero, status := Vector.replicate 8 UpEntry.empty, change := 0 }

def DownCell.reset : DownCell :=
  { frame := 0, outcome := .none, epoch := 0, length := 0, time := 0, payload := List.replicate 40 0, change := 0 }

def Call.reset : Call :=
  { part := CallRec.reset, cells := Vector.replicate 8 DownCell.reset, notify := false, dial := [], ring := none,
    access := none, release := none, bases := [], pends := [] }

def Clu.reset : Clu :=
  { calls := Vector.replicate 4 Call.reset, nextRef := ⟨0, 0⟩, decline := ⟨none, none⟩ }

def OutSlot.reset : OutSlot :=
  { taken := 0, result := .ok, state := .empty, cause := .none, owner := .a, withdraw := false, late := false,
    ref := 0, segments := 0, acked := 0, attempts := 0, restarts := 0, queued := 0, final := 0, change := 0,
    body := [], notify := false }

def SendSide.reset : SendSide :=
  { queue := [], nextRef := 0, flight := none, plan := .none, sentRef := false, pause := none }

/-- An IDLE reassembly context (R163). -/
def Reasm.idle : Reasm :=
  { state := .idle, sub := .a, ref := 0, segs := Vector.replicate 8 none, last := none, lastTime := 0, complete := 0 }

def InSlot.reset : InSlot :=
  { fill := 0, sub := .a, ref := 0, length := 0, segments := 0, time := 0, body := List.replicate 176 0, change := 0,
    release := 0 }

def Txu.reset : Txu :=
  { slots := Vector.replicate 8 OutSlot.reset, side := ⟨SendSide.reset, SendSide.reset⟩,
    reasm := Vector.replicate 4 Reasm.idle, inbox := Vector.replicate 8 InSlot.reset, receipts := [] }

/-- The power controller after a reset (R179). -/
def Pwc.reset : Pwc :=
  { state := .run, sleeps := 0, totalSleep := 0, lastSleep := 0, drift := 0, wideWakes := 0, change := 0, timer := 0,
    target := 0, usedDrift := 0, accum := 0, permit := .none, maxSleep := 1, sampled := false, wakeEnd := 0 }

/-- The input pins at rest: nothing asserted. -/
def Pins.rest : Pins := { txInhibit := false, resetHeld := false }

/-- The part right after a reset (R194), the RESET pin deasserted, TXINHIBIT deasserted and no command waiting. -/
def State.reset : State :=
  { exm := Exm.reset, tmu := Tmu.reset, rpl := Rpl.reset, sbc := ⟨SbcX.reset, SbcX.reset⟩,
    cmu := ⟨CellTable.reset, CellTable.reset⟩, mbu := ⟨MbuX.reset, MbuX.reset⟩, clu := Clu.reset, txu := Txu.reset,
    pwc := Pwc.reset, pins := Pins.rest, pending := [] }

end Sys2Proof.Machine
end

