-- ==== Sys2Proof/Machine/Flags.lean ====
section
/-! DEFINITION. The flags of the host port: PENDING, ATTN, the scan-pending mask and the CONTROL word. -/

namespace Sys2Proof.Machine

/-- An owning block sets its area's PENDING bit (R187). -/
def State.raise (a : Area) (s : State) : State :=
  { s with exm := { s.exm with attn := s.exm.attn ||| areaMask a } }

/-- Sets an area's PENDING bit when the update raises it. -/
def State.raiseIf (b : Bool) (a : Area) (s : State) : State := if b then s.raise a else s

/-- ATTN is driven while the AND of PENDING and ENABLE is non-zero (R187). -/
def State.attnDriven (s : State) : Bool := s.exm.attn &&& s.exm.enable != 0

/-- The TXEN output: the transceiver's power enable, low in SLEEP and high in every other power state (R169, R175; the pin table of chapter 11). -/
def State.transceiverEnabled (s : State) : Bool := s.pwc.state != .sleep

/-- A command is pending with the transceiver: an occupancy is STARTED (R39, R47). -/
def State.commandPending (s : State) : Bool := s.rpl.plan.any fun o => o.started

/-- The transceiver is held in standby over the radio link port: in NAP, while no command is pending with it (R169, R172). -/
def State.transceiverStandby (s : State) : Bool := s.pwc.state == .nap && !s.commandPending

/-- An area's bit of the scan-pending mask is set (R185). -/
def State.scanSet (a : Area) (s : State) : Bool := s.exm.scan &&& areaMask a != 0

/-- An area's bit of the scan-pending mask is cleared (R185). -/
def State.scanClear (a : Area) (s : State) : State :=
  { s with exm := { s.exm with scan := s.exm.scan &&& ~~~ (areaMask a) } }

/-- The blocks work: the part is RUNNING, its power state is RUN or NAP, and the RESET pin is not asserted (R169, R186,
R194). -/
def State.working (s : State) : Bool :=
  s.exm.run == .running && (s.pwc.state == .run || s.pwc.state == .nap) && !s.pins.resetHeld

/-- The word CONTROL reads (11.1, R191). -/
def State.controlWord (s : State) : Word :=
  match s.exm.run with
  | .stopped => if s.exm.badSetup then 0x100 else 0x000
  | .starting => if s.exm.badSetup then 0x111 else 0x011
  | .running => if s.exm.badSetup then 0x121 else 0x021

end Sys2Proof.Machine
end

