-- ==== Sys2Proof/Machine/Ops.lean ====
section
/-! DEFINITION. The named operations over the exchange memory and over the state: reading and writing bytes, the
passing of time, readers and writers of each block's records, and the update of a record (R189). -/

namespace Sys2Proof.Machine

/-! ### Host-written memory -/

/-- The byte at an address: an address the list does not hold reads 0 (R194). -/
def memRead : List Host.Cell → Nat → Byte
  | [], _ => 0
  | (k, v) :: m, a => if a = k then v else memRead m a

/-- A byte written, the list kept in its canonical form. -/
def memWrite : List Host.Cell → Nat → Byte → List Host.Cell
  | [], a, b => if b = 0 then [] else [(a, b)]
  | (k, v) :: m, a, b =>
    if a < k then (if b = 0 then (k, v) :: m else (a, b) :: (k, v) :: m)
    else if a = k then (if b = 0 then m else (a, b) :: m)
    else (k, v) :: memWrite m a b

/-- Every address of the list is above `a`. -/
def memAbove (a : Nat) : List Host.Cell → Bool
  | [] => true
  | (k, _) :: _ => decide (a < k)

/-- The canonical form: addresses strictly rising, no byte 0. -/
def memWf : List Host.Cell → Bool
  | [] => true
  | (k, v) :: m => v != 0 && memAbove k m && memWf m

/-- The word at a byte offset, little end first (chapter 12). -/
def memWord (m : List Host.Cell) (off : Nat) : Word :=
  wordOfBytes (memRead m off) (memRead m (off + 1)) (memRead m (off + 2)) (memRead m (off + 3))

/-- The bytes of a field: byte n of a string lies at byte offset n of its field (chapter 12). -/
def memBytes (m : List Host.Cell) (off n : Nat) : List Byte := (List.range n).map fun i => memRead m (off + i)

/-- The enabled byte lanes of a word written (R182). -/
def memWriteLanes (m : List Host.Cell) (off : Nat) (lanes : BitVec 4) (w : Word) : List Host.Cell :=
  [0, 1, 2, 3].foldl (fun m i => if lanes.getLsbD i then memWrite m (off + i) (wordByte w i) else m) m

/-- The bits of an area mask that the enabled byte lanes of a register write carry: lane 0 bits 7..0, lane 1 bit 8 (11.1,
R182). -/
def laneAreas (lanes : BitVec 4) : BitVec 9 :=
  (if lanes.getLsbD 0 then 0x0FF else 0) ||| (if lanes.getLsbD 1 then 0x100 else 0)

/-- The area bits that a register write brings: those of its enabled lanes (R182). -/
def areasWritten (w : LaneWord) : BitVec 9 := w.data.truncate 9 &&& laneAreas w.lanes

/-- A word of host-written memory as the part reads it. -/
def State.hostWord (s : State) (off : Nat) : Word := memWord s.exm.mem off

/-! ### Time -/

/-- Local time, the present (R17). -/
def State.now (s : State) : Nat := s.tmu.localTime

/-- The 48-bit count that a plain count of microseconds gives (R17; notes/assumptions/6.md). -/
def clockValue (n : Nat) : Nat := if n < 2 ^ 48 then n else Config.localTimePastEnd n % 2 ^ 48

/-- The slow timer counts toward its target (R174). -/
def State.slowTicks (n : Nat) (s : State) : State :=
  { s with pwc := { s.pwc with timer := min s.pwc.target (s.pwc.timer + n) } }

/-- The time before a command: microseconds of the reference clock in RUN, NAP and WAKING, slow clock ticks in SLEEP,
nothing while the RESET pin is asserted (R17, R174, R194; notes/assumptions/1.md). -/
def State.advance (dt : Nat) (s : State) : State :=
  if s.pins.resetHeld then s
  else if s.pwc.state = .sleep then s.slowTicks dt
  else { s with tmu := { s.tmu with localTime := clockValue (s.tmu.localTime + dt) } }

/-- One tick of the running clock: a cycle of the 26 MHz reference, 26 of which make a microsecond, or in SLEEP one
tick of the slow clock (R17, R174). -/
def State.tick (s : State) : State :=
  if s.pins.resetHeld then s
  else if s.pwc.state = .sleep then s.slowTicks 1
  else if s.tmu.refCycles + 1 < cyclesPerMicro then
    { s with tmu := { s.tmu with refCycles := s.tmu.refCycles + 1 } }
  else
    { s with tmu := { s.tmu with refCycles := 0, localTime := clockValue (s.tmu.localTime + 1) } }

/-! ### Readers and writers -/

def State.ctx (s : State) (c : Fin 3) : Ctx := s.tmu.ctx[c]
def State.sub (s : State) (x : Sub) : SubRec := (s.sbc.get x).part
def State.set (s : State) (x : Sub) : SubSettings := (s.sbc.get x).set
def State.cell (s : State) (x : Sub) (r : Fin 18) : CellRec := (s.cmu.get x).recs[r]
def State.machine (s : State) (x : Sub) : HoMachine := (s.mbu.get x).machine
def State.call (s : State) (k : Fin 4) : Call := s.clu.calls[k]
def State.slot (s : State) (i : Fin 8) : OutSlot := s.txu.slots[i]
def State.side (s : State) (x : Sub) : SendSide := s.txu.side.get x

def State.modCtx (s : State) (c : Fin 3) (f : Ctx → Ctx) : State :=
  { s with tmu := { s.tmu with ctx := s.tmu.ctx.set c (f s.tmu.ctx[c]) } }
def State.modSbc (s : State) (x : Sub) (f : SbcX → SbcX) : State :=
  { s with sbc := s.sbc.set x (f (s.sbc.get x)) }
def State.modTable (s : State) (x : Sub) (f : CellTable → CellTable) : State :=
  { s with cmu := s.cmu.set x (f (s.cmu.get x)) }
def State.modCell (s : State) (x : Sub) (r : Fin 18) (f : CellRec → CellRec) : State :=
  s.modTable x fun t => { t with recs := t.recs.set r (f t.recs[r]) }
def State.modMbu (s : State) (x : Sub) (f : MbuX → MbuX) : State :=
  { s with mbu := s.mbu.set x (f (s.mbu.get x)) }
def State.modMachine (s : State) (x : Sub) (f : HoMachine → HoMachine) : State :=
  s.modMbu x fun m => { m with machine := f m.machine }
def State.modCall (s : State) (k : Fin 4) (f : Call → Call) : State :=
  { s with clu := { s.clu with calls := s.clu.calls.set k (f s.clu.calls[k]) } }
def State.modSlot (s : State) (i : Fin 8) (f : OutSlot → OutSlot) : State :=
  { s with txu := { s.txu with slots := s.txu.slots.set i (f s.txu.slots[i]) } }
def State.modSide (s : State) (x : Sub) (f : SendSide → SendSide) : State :=
  { s with txu := { s.txu with side := s.txu.side.set x (f (s.txu.side.get x)) } }
def State.modReasm (s : State) (i : Fin 4) (f : Reasm → Reasm) : State :=
  { s with txu := { s.txu with reasm := s.txu.reasm.set i (f s.txu.reasm[i]) } }
def State.modInbox (s : State) (i : Fin 8) (f : InSlot → InSlot) : State :=
  { s with txu := { s.txu with inbox := s.txu.inbox.set i (f s.txu.inbox[i]) } }

/-! ### Index lists -/

def allSubs : List Sub := [.a, .b]
def allCtx : List (Fin 3) := [0, 1, 2]
def allCalls : List (Fin 4) := [0, 1, 2, 3]
def allSlots : List (Fin 8) := [0, 1, 2, 3, 4, 5, 6, 7]
def allReasm : List (Fin 4) := [0, 1, 2, 3]
def hostRecs : List (Fin 18) := [0, 1, 2, 3, 4, 5, 6, 7, 8, 9, 10, 11, 12, 13, 14, 15]
def guestRecs : List (Fin 18) := [16, 17]
def allRecs : List (Fin 18) := hostRecs ++ guestRecs

/-- The other subscription. -/
def otherSub : Sub → Sub
  | .a => .b
  | .b => .a

/-- A subscription's number, 0 for A and 1 for B. -/
def subNum : Sub → Nat
  | .a => 0
  | .b => 1

/-! ### Updates of records (R189): the data, the change count, the PENDING bit -/

/-- An update of a subscription record; it raises SUBS (R58). -/
def State.subUpd (s : State) (x : Sub) (f : SubRec → SubRec) : State :=
  (s.modSbc x fun b => { b with part := { f b.part with change := b.part.change + 1 } }).raise .subs

/-- An update of a subscription record, made only where it changes a field. -/
def State.subSet (s : State) (x : Sub) (f : SubRec → SubRec) : State :=
  if f (s.sub x) = s.sub x then s else s.subUpd x f

/-- An update of a cell record; it raises CELLS (R77). -/
def State.cellUpd (s : State) (x : Sub) (r : Fin 18) (f : CellRec → CellRec) : State :=
  (s.modCell x r fun c => { f c with change := c.change + 1 }).raise .cells

/-- An update of a cell record, made only where it changes a field. -/
def State.cellSet (s : State) (x : Sub) (r : Fin 18) (f : CellRec → CellRec) : State :=
  if f (s.cell x r) = s.cell x r then s else s.cellUpd x r f

/-- An update of a call context; it raises CALLS (R131). -/
def State.callUpd (s : State) (k : Fin 4) (f : CallRec → CallRec) : State :=
  (s.modCall k fun c => { c with part := { f c.part with change := c.part.change + 1 } }).raise .calls

/-- A write of an uplink status entry with its count: it raises VOICE where the notify-uplink flag as taken is set
(R149). -/
def State.callStatusUpd (s : State) (k : Fin 4) (f : CallRec → CallRec) : State :=
  (s.modCall k fun c => { c with part := { f c.part with change := c.part.change + 1 } }).raiseIf (s.call k).notify .voice

/-- An update of an outbox slot, raising OUTBOX where `b` holds (R151). -/
def State.slotUpd (s : State) (i : Fin 8) (b : Bool) (f : OutSlot → OutSlot) : State :=
  (s.modSlot i fun o => { f o with change := o.change + 1 }).raiseIf b .outbox

/-- An update of the POWER record, raising POWER where `b` holds (R178). -/
def State.powerUpd (s : State) (b : Bool) (f : Pwc → Pwc) : State :=
  ({ s with pwc := { f s.pwc with change := s.pwc.change + 1 } } : State).raiseIf b .power

/-- An update of the fault record; it raises FAULT (R183). -/
def State.faultUpd (s : State) (f : FaultRecord → FaultRecord) : State :=
  ({ s with exm := { s.exm with fault := { f s.exm.fault with change := s.exm.fault.change + 1 } } } : State).raise .fault

/-- An update of the link status; it raises FAULT (R49). -/
def State.linkUpd (s : State) (total consecutive : Nat) : State :=
  if total = s.rpl.totalSilent ∧ consecutive = s.rpl.runSilent then s
  else ({ s with rpl := { s.rpl with totalSilent := total, runSilent := consecutive, linkChange := s.rpl.linkChange + 1 } } : State).raise .fault

end Sys2Proof.Machine
end

