-- ==== Sys2Proof/Machine/Operands.lean ====
section
/-! DEFINITION. The host-written halves as the part decodes and clamps them (R57, R76, R131, R149, R151, R168, R192, R196):
every operand form of exchange memory. Offsets are byte offsets in exchange memory. -/

namespace Sys2Proof.Machine

/-! ### Where the records lie (chapter 12) -/

def subBase (x : Sub) : Nat := 0x200 + 0x200 * subNum x
def cellBase (x : Sub) (r : Fin 18) : Nat := 0x800 + 0x480 * subNum x + 64 * r.val
def callBase (k : Fin 4) : Nat := 0x1200 + 128 * k.val
def upCellBase (k : Fin 4) (i : Nat) : Nat := 0x2000 + 0x400 * k.val + 64 * i
def downCellBase (k : Fin 4) (i : Nat) : Nat := 0x2000 + 0x400 * k.val + 0x200 + 64 * i
def outBase (i : Fin 8) : Nat := 0x3000 + 256 * i.val
def inBase (i : Fin 8) : Nat := 0x3800 + 256 * i.val

/-! ### Setup record (R180, R192) -/

def State.setupVersion (s : State) : Nat := (s.hostWord 0x0).toNat

def State.setupPermit (s : State) : Permit :=
  match (s.hostWord 0x4).toNat with
  | 1 => .nap
  | 2 => .full
  | _ => .none

def State.setupMaxSleep (s : State) : Nat := max 1 (min 30 (s.hostWord 0x8).toNat)

/-! ### Subscription settings (R57) -/

/-- The paging cycle, frames, of a cycle code: 0..3 are 32, 64, 128 and 256, any other is taken as 3. -/
def cycleFrames (code : Nat) : Nat :=
  match code with
  | 0 => 32
  | 1 => 64
  | 2 => 128
  | _ => 256

/-- Dwell D: 0 is taken as 1, above 64 as 64. -/
def takenDwell (d : Nat) : Nat := max 1 (min 64 d)

/-- The host half of a subscription record as taken. -/
def State.readSettings (s : State) (x : Sub) : SubSettings :=
  let b := subBase x
  let w2 := s.hostWord (b + 8)
  let w3 := s.hostWord (b + 12)
  let w4 := s.hostWord (b + 16)
  let cycle := cycleFrames (field w2 0 8)
  { enable := s.hostWord b != 0
    tag := s.hostWord (b + 4)
    cycle := cycle
    offset := field w2 16 16 % cycle
    tmin := min 200 (field w3 0 8)
    tweak := min 200 (field w3 8 8)
    hw := min 40 (field w3 16 8)
    tfail := min 200 (field w3 24 8)
    margin := min 30 (field w4 0 8)
    dwell := takenDwell (field w4 8 8)
    k := min 4 (field w4 16 8)
    ack := BitVec.ofNat 16 (field (s.hostWord (b + 20)) 0 16) }

/-! ### Cell records (R76) -/

/-- The host half of a cell record as taken: in use, key, offset O, probe stamp, weak-clear stamp. -/
structure CellSettings where
  inUse  : Bool
  key    : Key
  offset : Int
  probe  : Stamp
  weak   : Stamp
  deriving DecidableEq, Repr

/-- A channel above 1023 makes the record not in use; O is clamped to −24..24. -/
def State.readCell (s : State) (x : Sub) (r : Fin 18) : CellSettings :=
  let b := cellBase x r
  let w1 := s.hostWord (b + 4)
  let w3 := s.hostWord (b + 12)
  { inUse := s.hostWord b != 0 && decide (field w1 16 16 ≤ 1023)
    key := { channel := BitVec.ofNat 10 (field w1 16 16), code := BitVec.ofNat 16 (field w1 0 16) }
    offset := clampInt (-24) 24 (signedField (s.hostWord (b + 8)) 0 8)
    probe := BitVec.ofNat 16 (field w3 0 16)
    weak := BitVec.ofNat 16 (field w3 16 16) }

/-! ### Call contexts and uplink cells (R131, R149) -/

inductive CallRequest
  | dial
  | answer
  | release
  | free
  deriving DecidableEq, Repr

def State.callStamp (s : State) (k : Fin 4) : Stamp := BitVec.ofNat 16 (field (s.hostWord (callBase k)) 0 16)

/-- The request code; none for a code that is not listed (12.6). -/
def State.callRequest (s : State) (k : Fin 4) : Option CallRequest :=
  match field (s.hostWord (callBase k)) 16 8 with
  | 1 => some .dial
  | 2 => some .answer
  | 3 => some .release
  | 4 => some .free
  | _ => none

/-- A subscription field of a word: 0 A, 1 B, none for any other value. -/
def subField (w : Word) : Option Sub :=
  match field w 0 32 with
  | 0 => some .a
  | 1 => some .b
  | _ => none

def State.callSub (s : State) (k : Fin 4) : Option Sub := subField (s.hostWord (callBase k + 4))
def State.callNotify (s : State) (k : Fin 4) : Bool := s.hostWord (callBase k + 8) != 0
def State.callDial (s : State) (k : Fin 4) : List Byte := memBytes s.exm.mem (callBase k + 16) 16

def State.upTag (s : State) (k : Fin 4) (i : Nat) : Frame := BitVec.ofNat 16 (field (s.hostWord (upCellBase k i)) 0 16)
def State.upLength (s : State) (k : Fin 4) (i : Nat) : Nat := field (s.hostWord (upCellBase k i)) 16 8
def State.upPayload (s : State) (k : Fin 4) (i : Nat) : List Byte :=
  memBytes s.exm.mem (upCellBase k i + 4) (s.upLength k i)

/-! ### Outbox and inbox slots (R151, R168) -/

inductive OutRequest
  | send
  | withdraw
  | free
  deriving DecidableEq, Repr

def State.outStamp (s : State) (i : Fin 8) : Stamp := BitVec.ofNat 16 (field (s.hostWord (outBase i)) 0 16)

def State.outRequest (s : State) (i : Fin 8) : Option OutRequest :=
  match field (s.hostWord (outBase i)) 16 8 with
  | 1 => some .send
  | 2 => some .withdraw
  | 3 => some .free
  | _ => none

def State.outSub (s : State) (i : Fin 8) : Option Sub := subField (s.hostWord (outBase i + 4))
def State.outNotify (s : State) (i : Fin 8) : Bool := s.hostWord (outBase i + 8) != 0
def State.outLength (s : State) (i : Fin 8) : Nat := field (s.hostWord (outBase i + 12)) 0 16
def State.outBody (s : State) (i : Fin 8) : List Byte := memBytes s.exm.mem (outBase i + 16) (s.outLength i)

def State.inRelease (s : State) (i : Fin 8) : Stamp := BitVec.ofNat 16 (field (s.hostWord (inBase i + 252)) 0 16)

/-! ### The fault-ack stamp (R184) -/

def State.faultAck (s : State) : Stamp := BitVec.ofNat 16 (field (s.hostWord 0x13C) 0 16)

end Sys2Proof.Machine
end

