-- ==== Sys2Proof/Machine/Timing.lean ====
section
/-! DEFINITION. The timing unit's own arithmetic (chapter 2): prediction, capture windows, tracking, activity, and which
planning event is due. -/

namespace Sys2Proof.Machine

/-- The context follows a cell: LOCKED or HOLDOVER. -/
def Ctx.follows (c : Ctx) : Bool := c.state == .locked || c.state == .holdover

/-- The predicted start of frame `f` (R23). -/
def Ctx.predict (c : Ctx) (f : Frame) : Nat := c.anchorTime + frameLen * (f - c.anchorFrame).toNat

/-- The start of a frame near the anchor, before it or after it, as the anchor places it (R23, R148). -/
def Ctx.startOf (c : Ctx) (f : Frame) : Nat :=
  ((c.anchorTime : Int) + (f - c.anchorFrame).toInt * (frameLen : Int)).toNat

/-- The start of frame `f` as R1 has it: the capture time where the part holds its beacon's capture, which is the anchor frame's,
and otherwise the present prediction (R1, R23; notes/assumptions/65.md). -/
def Ctx.frameStart (c : Ctx) (f : Frame) : Nat := if f = c.anchorFrame then c.captureTime else c.startOf f

/-- The end of a slot of frame `f`, from that start (R1). -/
def Ctx.frameSlotEnd (c : Ctx) (f : Frame) (slot : Nat) : Nat := c.frameStart f + slotLen * (slot + 1)

/-- Frame `f` lies 32,768 or more frames beyond the anchor (R23). -/
def Ctx.tooFar (c : Ctx) (f : Frame) : Bool := decide (32768 ≤ (f - c.anchorFrame).toNat)

/-- The capture half-window in force: the wake half-window while the wake mark is set (R24). -/
def Ctx.window (c : Ctx) : Nat := if c.wakeMark then wakeHalf else c.halfWindow

/-- The frame running at a time: its predicted start is at or before it and its successor starts after it (R54). -/
def Ctx.frameAt (c : Ctx) (t : Nat) : Frame :=
  c.anchorFrame + BitVec.ofInt 16 (((t : Int) - c.anchorTime) / (frameLen : Int))

/-- A user of the given role and subscription is among the context's users. -/
def Ctx.hasUser (c : Ctx) (r : Role) (x : Sub) : Bool := c.users.any fun u => u.role == r && u.sub == x

/-- The subscription is among the context's users. -/
def Ctx.hasSub (c : Ctx) (x : Sub) : Bool := c.users.any fun u => u.sub == x

/-- The role is a seek role (R19). -/
def isSeek : Role → Bool
  | .serving => false
  | _ => true

/-- The context the subscription is a user of in a role. -/
def State.ctxOf (s : State) (r : Role) (x : Sub) : Option (Fin 3) := allCtx.find? fun c => (s.ctx c).hasUser r x

/-- The subscription's serving context. -/
def State.servingCtx (s : State) (x : Sub) : Option (Fin 3) := s.ctxOf .serving x

/-! ### Tracking (R25, R26, R33) -/

/-- The sign of the streak differs from that of `e`, or no streak runs. -/
def Ctx.newStreak (c : Ctx) (e : Int) : Bool := c.streak == 0 || c.streakNeg != decide (e < 0)

/-- The streak count a deviation beyond the jitter band gives (R25). -/
def Ctx.nextStreak (c : Ctx) (e : Int) : Nat := if c.newStreak e then 1 else c.streak + 1

/-- The deviation `e` re-anchors the context: it completes a streak, or the wake mark is set (R25, R33). -/
def Ctx.reanchors (c : Ctx) (e : Int) : Bool :=
  c.wakeMark || (decide (jitterBand < e.natAbs) && c.nextStreak e == 3)

/-- The context after an accepted beacon of frame `f` inside the window, at deviation `e` from its predicted start
(R25, R33): anchor, capture, streak, misses, and LOCKED. -/
def Ctx.track (c : Ctx) (f : Frame) (e : Int) : Ctx :=
  let p := c.predict f
  let c := { c with anchorFrame := f, captureTime := ((p : Int) + e).toNat, misses := 0, state := .locked, halfWindow := lockedHalf }
  if c.reanchors e then
    { c with anchorTime := ((p : Int) + e).toNat, streak := 0, wakeMark := false }
  else if jitterBand < e.natAbs then
    { c with anchorTime := p, streak := c.nextStreak e, streakNeg := decide (e < 0) }
  else
    { c with anchorTime := ((p : Int) + e.tdiv 2).toNat, streak := 0 }

/-- The context after the beacon that ends its seek (R29): no window test. -/
def Ctx.found (c : Ctx) (f : Frame) (capture : Nat) : Ctx :=
  { c with
    state := .locked, anchorFrame := f, anchorTime := capture, captureTime := capture, misses := 0, streak := 0,
    halfWindow := lockedHalf, first := some (.seek (plusFrames f 1)) }

/-- A miss (R27); the count runs to 50. -/
def Ctx.miss (c : Ctx) : Ctx := { c with misses := satInc lossMisses c.misses }

/-- A context newly allocated under a key: SEEK with one user (R20, R21, R28). -/
def Ctx.seekFor (c : Ctx) (k : Key) (u : User) (now : Nat) : Ctx :=
  { Ctx.reset with state := .seek, key := k, users := [u], continuous := true, seekEntry := now, alloc := c.alloc + 1 }

/-- The context's marks of MEASUREs granted, for a subscription's record `r` of key `k` and frame `f` (R89, R90, R92). -/
def Ctx.noteMeasure (c : Ctx) (x : Sub) (f : Frame) (r : Fin 18) (k : Key) : Ctx :=
  { c with measured := { sub := x, frame := f, record := r, key := k } :: c.measured }

/-- A context gone FREE (R18, R19). -/
def Ctx.freed (c : Ctx) : Ctx := { Ctx.reset with alloc := c.alloc + 1 }

/-! ### Activity (R30) -/

/-- The head of the subscription's send queue is SENDING. -/
def State.headSending (s : State) (x : Sub) : Bool :=
  match (s.side x).queue with
  | [] => false
  | i :: _ => (s.slot i).state == .sending

/-- A user's need is CONTINUOUS (R30). -/
def State.needs (s : State) (u : User) : Bool :=
  isSeek u.role || (s.sub u.sub).state == .connected || (s.sub u.sub).state == .moving
    || (s.sub u.sub).listenEnd.isSome || s.headSending u.sub

/-- The context with its activity recomputed; a LOCKED or HOLDOVER context that becomes CONTINUOUS has its first event at
once, one that becomes WINDOWED has none waiting but that of a seek (R30, R31, R32). -/
def State.withActivity (s : State) (c : Ctx) : Ctx :=
  if c.users.any s.needs then
    if c.continuous then c
    else { c with continuous := true, first := if c.follows && c.first.isNone then some .resume else c.first }
  else { c with continuous := false, first := if c.first = some .resume then none else c.first }

/-- The activity of every context recomputed (R30). -/
def State.refresh (s : State) : State :=
  { s with tmu := { s.tmu with ctx := #v[s.withActivity (s.ctx 0), s.withActivity (s.ctx 1), s.withActivity (s.ctx 2)] } }

/-! ### Which frame comes next (R31, R32) -/

/-- The first frame whose predicted start is at least 3,000 µs after `now` and which is ahead of the last planned frame
(R31). -/
def Ctx.resumeFrame (c : Ctx) (now : Nat) : Frame :=
  let n := plusFrames c.anchorFrame ((now + wakeLead - c.anchorTime + (frameLen - 1)) / frameLen)
  match c.lastPlanned with
  | none => n
  | some l => if ahead n l then n else plusFrames l 1

/-- The frame that the CONTINUOUS events' next one offers, and its time: a first event comes at once (R31). -/
def Ctx.nextContinuous (c : Ctx) (now : Nat) : Option (Frame × Nat) :=
  match c.first with
  | some (.seek f) => some (f, 0)
  | some .resume => some (c.resumeFrame now, 0)
  | none =>
    if c.continuous then
      match c.lastPlanned with
      | none => some (c.resumeFrame now, 0)
      | some l => some (plusFrames l 1, c.predict l)
    else none

/-- The frames the context's WINDOWED users need: the paging window a CAMPED subscription has named (R32, R68). -/
def State.namedFrames (s : State) (c : Ctx) : List Frame :=
  c.users.filterMap fun u =>
    if u.role = .serving ∧ (s.sub u.sub).state = .camped then (s.sbc.get u.sub).window else none

/-- The frame after which the next event's frame lies: the last planned, or the anchor before any was planned. -/
def Ctx.lastFrame (c : Ctx) : Frame := c.lastPlanned.getD c.anchorFrame

/-- The nearest of the frames that is ahead of `l` (R32). -/
def nearestAhead (l : Frame) : List Frame → Option Frame
  | [] => none
  | f :: fs =>
    match nearestAhead l fs with
    | none => if ahead f l then some f else none
    | some g => if ahead f l && decide ((f - l).toNat ≤ (g - l).toNat) then some f else some g

/-- The next event of a WINDOWED context, and its time: 3,000 µs before the frame (R32). -/
def State.nextWindowed (s : State) (c : Ctx) : Option (Frame × Int) :=
  if c.follows && !c.continuous && c.first.isNone then
    (nearestAhead c.lastFrame (s.namedFrames c)).map fun f => (f, (c.predict f : Int) - wakeLead)
  else none

/-- The frame offered by the planning event of a LOCKED or HOLDOVER context that is due at the present (R31). A frame too
far beyond the anchor is not planned (R23). -/
def State.dueOffer (s : State) (i : Fin 3) : Option Frame :=
  let c := s.ctx i
  if c.follows then
    match c.nextContinuous s.now with
    | some (f, t) => if t ≤ s.now ∧ c.tooFar f = false then some f else none
    | none => none
  else none

/-- The frame offered by the WINDOWED planning event that is due at the present (R32). -/
def State.dueWindowed (s : State) (i : Fin 3) : Option Frame :=
  match s.nextWindowed (s.ctx i) with
  | some (f, t) => if t ≤ s.now ∧ (s.ctx i).tooFar f = false then some f else none
  | none => none

/-- The frame the next planning event would offer lies too far beyond the anchor (R23). -/
def State.outrun (s : State) (i : Fin 3) : Bool :=
  let c := s.ctx i
  c.follows &&
    (match c.nextContinuous s.now with
     | some (f, _) => c.tooFar f
     | none =>
       match s.nextWindowed c with
       | some (f, _) => c.tooFar f
       | none => false)

/-- The planning event that offers frame `f`, or the first frame ahead of it, is due or has been raised. -/
def State.reached (s : State) (i : Fin 3) (f : Frame) : Bool :=
  let offered (o : Option Frame) : Bool := match o with | some g => atOrAhead g f | none => false
  (s.ctx i).follows && (offered (s.ctx i).lastPlanned || offered (s.dueOffer i) || offered (s.dueWindowed i))

/-- A planned send is due at the event that offers frame `f`. -/
def NextSend.dueAt (n : NextSend) (f : Frame) : Bool :=
  match n with
  | .nextEvent => true
  | .atFrame g => atOrAhead f g
  | .waiting => false
  | .none => false

end Sys2Proof.Machine
end

