-- ==== Sys2Proof/Machine/Planner.lean ====
section
/-! DEFINITION. The radio planner's own decisions over the plan list (chapter 3): conflict, arbitration, admission,
merging, withdrawal, handles. Nothing here touches another block. -/

namespace Sys2Proof.Machine

/-- The reasons of a DENIED outcome (R37). -/
inductive Denial
  | conflict
  | lent
  | full
  | late
  | inhibit
  | reallocated
  deriving DecidableEq, Repr

/-- The outcomes of an occupancy (R39). `byLine` says that TXINHIBIT aborted it (R53, R149). -/
inductive Ending
  | done
  | denied (reason : Denial)
  | missed
  | silent
  | aborted (byLine : Bool)
  deriving DecidableEq, Repr

/-- The transmit kinds (R36). -/
def isTransmit : Kind → Bool
  | .txVoice | .txStolen | .txOpen | .txArrival => true
  | _ => false

/-- The kinds that merge: BEACON and PAGING (R41). -/
def isBeacon : Kind → Bool
  | .beacon | .paging => true
  | _ => false

/-- The subscription is a requester. -/
def Occ.asks (o : Occ) (x : Sub) : Bool := (o.who.get x).isSome

/-- The subscription requested a PAGING. -/
def Occ.asksPaging (o : Occ) (x : Sub) : Bool :=
  match o.who.get x with
  | some w => w.kind == .paging
  | none => false

/-- The subscription requested a BEACON. -/
def Occ.asksBeacon (o : Occ) (x : Sub) : Bool :=
  match o.who.get x with
  | some w => w.kind == .beacon
  | none => false

/-- The subscription requested it for the given use. -/
def Occ.asksFor (o : Occ) (x : Sub) (u : Use) : Bool :=
  match o.who.get x with
  | some w => w.use == u
  | none => false

/-- No requester remains. -/
def Occ.orphan (o : Occ) : Bool := !o.asks .a && !o.asks .b

/-! ### Arbitration (R40 to R46) -/

/-- Two occupancies conflict: they overlap, or on different channels come within the retune guard (R40). -/
def Occ.conflicts (o n : Occ) : Bool :=
  if o.channel = n.channel then decide (o.start < n.stop) && decide (n.start < o.stop)
  else decide (o.start < n.stop + retuneGuard) && decide (n.start < o.stop + retuneGuard)

/-- The subscription whose PAGING `p` is, when it meets a class-2 occupancy `q` of the other subscription (R42, R44). A merged
PAGING that the other subscription requests as well still counts as one of this subscription (notes/assumptions/56.md). -/
def pagingOver (p q : Occ) : Option Sub :=
  if p.kind = .paging ∧ q.cls = 2 then
    allSubs.find? fun x => p.asksPaging x && q.asks (otherSub x) && !q.asks x
  else none

/-- The pairing of the lending test: a PAGING of class 3 against a class-2 occupancy of the other subscription (R42). -/
def lendingPair (p q : Occ) : Option Sub := if p.cls = 3 then pagingOver p q else none

/-- The newcomer `n` beats `o`, which is in the list; `lend` gives the lending counts (R42, R43). -/
def beats (lend : Sub → Nat) (n o : Occ) : Bool :=
  match lendingPair n o, lendingPair o n with
  | some x, _ => decide (2 ≤ lend x)
  | none, some x => !decide (2 ≤ lend x)
  | none, none =>
    if n.cls ≠ o.cls then decide (n.cls < o.cls)
    else if n.start ≠ o.start then decide (n.start < o.start)
    else n.asks .a && !o.asks .a

/-- An occupancy put into the list, which is in order of start (R39). -/
def insertOcc (n : Occ) : List Occ → List Occ
  | [] => [n]
  | o :: os => if n.start < o.start then n :: o :: os else o :: insertOcc n os

/-- The candidate for eviction: GRANTED, of the greatest class, and among those the latest start (R46). -/
def evictee (plan : List Occ) : Option Occ :=
  plan.foldl (fun best o =>
    if o.started then best
    else match best with
      | none => some o
      | some b => if b.cls < o.cls ∨ (b.cls = o.cls ∧ b.start < o.start) then some o else best) none

/-- What admission does: the list after it, the occupancies that left with their reasons, and the newcomer's denial. -/
structure Admission where
  plan   : List Occ
  out    : List (Occ × Denial)
  denied : Option Denial
  deriving DecidableEq, Repr

/-- LENT or CONFLICT (R44). -/
def lentOr (b : Bool) : Denial := if b then .lent else .conflict

/-- A newcomer tested against the list (R44, R46). -/
def arbitrate (lend : Sub → Nat) (plan : List Occ) (n : Occ) : Admission :=
  let rivals := plan.filter fun o => o.conflicts n
  let victors := rivals.filter fun o => o.started || !beats lend n o
  if !victors.isEmpty then
    { plan := plan, out := [], denied := some (lentOr (victors.any fun o => (pagingOver o n).isSome)) }
  else if !rivals.isEmpty then
    { plan := insertOcc n (plan.filter fun o => !o.conflicts n)
      out := rivals.map fun o => (o, lentOr (pagingOver n o).isSome)
      denied := none }
  else if plan.length < planCapacity then { plan := insertOcc n plan, out := [], denied := none }
  else
    match evictee plan with
    | some v =>
      if n.cls < v.cls then
        { plan := insertOcc n (plan.filter fun o => o.handle != v.handle), out := [(v, .full)], denied := none }
      else { plan := plan, out := [], denied := some .full }
    | none => { plan := plan, out := [], denied := some .full }

/-! ### Merging (R41) -/

/-- The occupancy of the list that a BEACON or PAGING newcomer merges with. -/
def mergeable (n o : Occ) : Bool :=
  isBeacon n.kind && isBeacon o.kind && o.ctx == n.ctx && o.alloc == n.alloc && o.frame == n.frame && o.slot == 0

/-- A requester's own request once a further one of its own is satisfied by the same occupancy (R41). -/
def Own.joined (v w : Own) : Own :=
  { (if w.kind = .paging then w else v) with cls := min v.cls w.cls }

/-- The newcomer's requesters joined to an occupancy: the higher class, and PAGING if either is one (R41). -/
def mergeInto (n o : Occ) : Occ :=
  allSubs.foldl (fun o x =>
    match n.who.get x with
    | some w =>
      let own := match o.who.get x with
        | some v => v.joined w
        | none => w
      { o with who := o.who.set x (some own), cls := min o.cls w.cls,
               kind := if w.kind = .paging then .paging else o.kind }
    | none => o) o

/-! ### Withdrawal (R38) -/

/-- An occupancy without a requester: one left while GRANTED has the class, and of a merged beacon the kind, of that
one's own request. -/
def Occ.without (o : Occ) (x : Sub) : Occ :=
  let o' := { o with who := o.who.set x none }
  match o'.who.get (otherSub x) with
  | some w => if o.started then o' else { o' with cls := w.cls, kind := if isBeacon o.kind then w.kind else o.kind }
  | none => o'

/-- The list after the subscription's withdrawal from the occupancies that `p` picks. -/
def withdrawPlan (x : Sub) (p : Occ → Bool) (plan : List Occ) : List Occ :=
  plan.filterMap fun o =>
    if o.asks x && p o then
      let o' := o.without x
      if !o.started && o'.orphan then none else some o'
    else some o

/-! ### Handles (R35) -/

/-- The first handle from `h` on that no occupancy of the list holds, among `n + 1` of them. -/
def freshHandle (plan : List Occ) : Nat → Handle → Handle
  | 0, h => h
  | n + 1, h => if plan.any fun o => o.handle == h then freshHandle plan n (h + 1) else h

/-! ### The state's plan list -/

/-- A subscription withdraws from the occupancies that `p` picks (R38). -/
def State.withdraw (s : State) (x : Sub) (p : Occ → Bool) : State :=
  let plan := withdrawPlan x p s.rpl.plan
  { s with rpl := { s.rpl with plan := plan, left := s.rpl.left || plan.length != s.rpl.plan.length } }

/-- A subscription withdraws from every occupancy (R61, R63, R125, R128). -/
def State.withdrawAll (s : State) (x : Sub) : State := s.withdraw x fun _ => true

/-- The occupancies that `p` picks leave the list. -/
def State.dropOccs (s : State) (p : Occ → Bool) : State :=
  { s with rpl := { s.rpl with plan := s.rpl.plan.filter fun o => !p o,
                               left := s.rpl.left || s.rpl.plan.any p } }

/-- A command sent over the radio link port (R47). -/
def State.send (s : State) (c : RadioCommand) : State := { s with rpl := { s.rpl with sent := c :: s.rpl.sent } }

/-- The lending counts (R45). -/
def State.lend (s : State) (x : Sub) : Nat := (s.sub x).lending

/-- The occupancy keeps the present allocation of its context (R51). -/
def State.fresh (s : State) (o : Occ) : Bool := (s.ctx o.ctx).state != .free && (s.ctx o.ctx).alloc == o.alloc

/-- A transmit request for a frame meets the context's inhibit hold (R54). -/
def Ctx.holds (c : Ctx) (f : Frame) : Bool :=
  match c.hold with
  | some h => h.waiting || !ahead f h.release
  | none => false

/-- The denial of a request on entry (R37); where several cases hold the first of this order gives the reason
(notes/assumptions/64.md). -/
def State.entryDenial (s : State) (n : Occ) : Option Denial :=
  if s.fresh n = false then some .reallocated
  else if n.issue ≤ s.now then some .late
  else if isTransmit n.kind && (s.rpl.inhibit || (s.ctx n.ctx).holds n.frame) then some .inhibit
  else none

/-! ### Requests, by kind (R36) -/

/-- A request of subscription `x` on context `c`, as an occupancy without a handle. -/
def newOcc (s : State) (x : Sub) (c : Fin 3) (k : Kind) (cls : Nat) (u : Use) (f : Frame) (slot : Nat)
    (start stop : Int) (content : Content) : Occ :=
  { handle := 0, kind := k, cls := cls, ctx := c, alloc := (s.ctx c).alloc, frame := f, slot := slot, mini := 0,
    channel := (s.ctx c).key.channel, start := start, stop := stop, issue := start - issueAdvance, content := content,
    who := (Pair.mk none none).set x (some { kind := k, cls := cls, use := u }), call := none, started := false }

/-- A beacon listen of frame `f` (R24). -/
def beaconOcc (s : State) (x : Sub) (c : Fin 3) (k : Kind) (cls : Nat) (u : Use) (f : Frame) : Occ :=
  let p : Int := (s.ctx c).predict f
  let w : Int := (s.ctx c).window
  newOcc s x c k cls u f 0 (p - w) (p + slotLen + w) .beacon

/-- The start of a slot of frame `f` as the context predicts it (R1, R13). -/
def slotStart (s : State) (c : Fin 3) (f : Frame) (slot : Nat) : Int := (s.ctx c).predict f + slotLen * slot

/-- A use of one whole slot of frame `f` (R13, R36). -/
def slotOcc (s : State) (x : Sub) (c : Fin 3) (k : Kind) (cls : Nat) (u : Use) (f : Frame) (slot : Nat)
    (content : Content) : Occ :=
  newOcc s x c k cls u f slot (slotStart s c f slot) (slotStart s c f slot + slotLen) content

/-- The minislot of a block of tag `t` in frame `f` (R14). -/
def minislot (t : Tag) (f : Frame) : Nat := (t.toNat + f.toNat) % 5

/-- A TX-OPEN of frame `f`, in the minislot of the tag and frame (R13, R14). -/
def openOcc (s : State) (x : Sub) (c : Fin 3) (u : Use) (f : Frame) (block : Uplink) : Occ :=
  let tag := (s.set x).tag
  let m := minislot tag f
  let start : Int := (s.ctx c).predict f + openStart + miniLen * m
  { newOcc s x c .txOpen 5 u f 7 start (start + miniLen) (.send tag block) with mini := m }

/-- A MEASURE in a slot of frame `f`, kept clear of both slot boundaries, tuned to the key's channel (R36, R90). -/
def measureOcc (s : State) (x : Sub) (c : Fin 3) (f : Frame) (slot : Nat) (k : Key) (probe : Option (Fin 18)) : Occ :=
  let b := slotStart s c f slot
  { newOcc s x c .measure 6 .measure f slot (b + retuneGuard) (b + slotLen - retuneGuard) (.level k probe) with
    channel := k.channel }

end Sys2Proof.Machine
end

