-- ==== Sys2Proof/Machine/Texts.lean ====
section
/-! DEFINITION. The text unit's own records (chapter 9): the heads of the send queues, the segment in flight, pauses and
restarts, reassembly and delivery into inbox slots. What it asks of the planner is in the files after this one. -/

namespace Sys2Proof.Machine

/-! ### The send queue (R152) -/

/-- The slot at the head of the subscription's send queue. -/
def State.head (s : State) (x : Sub) : Option (Fin 8) := (s.side x).queue.head?

/-- The state of a head, by its subscription's (R152). -/
def headState (st : SubState) : OutState :=
  match st with
  | .camped | .connected => .sending
  | _ => .paused

/-- The working state of a head in the given state: its first send waits for the next planning event while SENDING, its
pause timer runs while PAUSED (R155, R161). -/
def SendSide.fresh (d : SendSide) (h : OutState) (now : Nat) : SendSide :=
  { d with flight := none, plan := if h = .sending then .nextEvent else .none, sentRef := false,
           pause := if h = .sending then none else some (now + pauseTime) }

/-- A slot that has become head takes the state of R152. -/
def State.promote (s : State) (x : Sub) : State :=
  match s.head x with
  | none => s
  | some i =>
    if (s.slot i).state = .queued then
      let h := headState (s.sub x).state
      (s.slotUpd i false fun o => { o with state := h }).modSide x fun d => d.fresh h s.now
    else s

/-- A slot leaves the queue; the one behind a head becomes head (R152). -/
def State.leaveQueue (s : State) (x : Sub) (i : Fin 8) : State :=
  if s.head x = some i then
    (s.modSide x fun d =>
      { d with queue := d.queue.tail, flight := none, plan := .none, sentRef := false, pause := none }).promote x
  else s.modSide x fun d => { d with queue := d.queue.filter fun j => j != i }

/-- The fields of a slot brought to a final state (R151, R160). -/
def OutSlot.finish (o : OutSlot) (st : OutState) (now : Nat) : OutSlot :=
  { o with state := st, withdraw := false, final := now }

/-- The head brought to a final state, in one update that raises OUTBOX, with `f` the update's other changes. -/
def State.finishHead (s : State) (x : Sub) (st : OutState) (f : OutSlot → OutSlot) : State :=
  match s.head x with
  | none => s
  | some i => (s.slotUpd i true fun o => (f o).finish st s.now).leaveQueue x i

/-- The head FAILED with a cause. -/
def State.failHead (s : State) (x : Sub) (c : FailCause) : State :=
  s.finishHead x .failed fun o => { o with cause := c }

/-! ### Segments in flight (R155 to R158) -/

/-- The bytes of a message's segment (R153). -/
def OutSlot.segment (o : OutSlot) (i : Nat) : List Byte := (o.body.drop (segmentLen * i)).take segmentLen

/-- The block of the head's current segment (R155). -/
def OutSlot.block (o : OutSlot) : Uplink :=
  .textSegment o.ref o.acked (o.acked + 1 == o.segments) (o.segment o.acked)

/-- The segment in flight is abandoned (R161): no attempt is counted, and a pending withdraw turns into WITHDRAWN. -/
def State.abandon (s : State) (x : Sub) : State :=
  match s.head x, (s.side x).flight with
  | some i, some f =>
    let s := s.withdraw x fun o => o.handle == f.handle && o.kind == .txOpen && !o.started
    let s := s.modSide x fun d => { d with flight := none, plan := .none }
    if (s.slot i).withdraw then s.finishHead x .withdrawn fun o => { o with attempts := o.attempts - 1 }
    else s.slotUpd i false fun o => { o with attempts := o.attempts - 1 }
  | _, _ => s

/-- The retry of a failed attempt that ended in frame `e`: frame `e + 1 + n`, or the next planning event's frame when that
one has been offered (R16, R158). -/
def State.retryPlan (s : State) (x : Sub) (e : Frame) (n : Nat) : SendPlan :=
  let r := plusFrames e (1 + n)
  match s.servingCtx x with
  | none => .nextEvent
  | some c =>
    match (s.ctx c).lastPlanned with
    | some l => if atOrAhead l r then .nextEvent else .atFrame r
    | none => .atFrame r

/-- An attempt of the head's segment fails, having ended in frame `e` (R158, R160): WITHDRAWN with a withdraw pending, no
further attempt after the fourth, whose head waits for NO_ACK alone, otherwise the retry is planned. It is an update that raises
nothing. -/
def State.attemptFailed (s : State) (x : Sub) (e : Frame) : State :=
  match s.head x with
  | none => s
  | some i =>
    let s := s.modSide x fun d => { d with flight := none }
    if (s.slot i).withdraw then s.finishHead x .withdrawn id
    else
      let n := (s.slot i).attempts
      let plan := if attemptMax ≤ n then .exhausted
        else if (s.slot i).state = .sending then s.retryPlan x e n else .none
      (s.slotUpd i false id).modSide x fun d =>
        { d with plan := plan, pause := if attemptMax ≤ n then none else d.pause }

/-- The acknowledgement window of the segment sent in frame `g` closes with nothing heard: the attempt fails, having ended in
the window's last frame (R156). -/
def State.closeWindow (s : State) (x : Sub) (g : Frame) : State := s.attemptFailed x (plusFrames g ackFrames)

/-- The outcome of a text segment's TX-OPEN (R156, R162). -/
def State.segmentOutcome (s : State) (x : Sub) (h : Handle) (ref : Ref) (e : Ending) : State :=
  let mine := match (s.side x).flight with | some f => f.handle == h && !f.sent | none => false
  match e with
  | .done =>
    let sentNow := match s.head x with | some i => (s.slot i).ref == ref | none => false
    s.modSide x fun d =>
      { d with sentRef := d.sentRef || sentNow
               flight := if mine then d.flight.map fun f => { f with sent := true } else d.flight }
  | .denied .reallocated =>
    if mine then
      let s := s.abandon x
      match s.head x with
      | some i =>
        if (s.slot i).state = .sending then s.modSide x fun d => { d with plan := .nextEvent } else s
      | none => s
    else s
  | _ =>
    if mine then
      match (s.side x).flight with
      | some f => s.attemptFailed x f.frame
      | none => s
    else s

/-- Frame `f` lies in the acknowledgement window of a segment sent in frame `g` (R15). -/
def inAckWindow (g f : Frame) : Bool := decide (1 ≤ (f - g).toNat) && decide ((f - g).toNat ≤ ackFrames)

/-- The text unit needs the beacon of frame `f` for its segment in flight (R69, R155), also one that was granted while
CONNECTED (notes/assumptions/93.md). -/
def State.wantsBeacon (s : State) (x : Sub) (f : Frame) : Bool :=
  match (s.side x).flight with
  | some g => inAckWindow g.frame f
  | none => false

/-- An acknowledgement entry handed for the subscription, from the serving beacon of frame `f` (R15, R157, R160). -/
def State.takeAck (s : State) (x : Sub) (f : Frame) (ref : Ref) (index : Nat) : State :=
  match s.head x, (s.side x).flight with
  | some i, some g =>
    let o := s.slot i
    if g.sent && inAckWindow g.frame f && o.ref == ref && o.acked == index then
      let s := s.modSide x fun d => { d with flight := none }
      let settle := fun o : OutSlot => { o with acked := o.acked + 1, attempts := 0 }
      if o.acked + 1 = o.segments then
        s.finishHead x .sent fun o => { settle o with late := o.withdraw }
      else if o.withdraw then s.finishHead x .withdrawn settle
      else
        (s.slotUpd i o.notify settle).modSide x fun d =>
          { d with plan := if o.state = .sending then .nextEvent else .none }
    else s
  | _, _ => s

/-! ### Pausing, resumption and restart (R161, R162) -/

/-- The head has been restarted to the limit (R162). -/
def State.restartsOut (s : State) (x : Sub) : Bool :=
  match s.head x with
  | some i => decide (restartMax ≤ (s.slot i).restarts)
  | none => false

/-- The head has reached a limit, a failed fourth attempt or a fourth restart, and waits for the NO_ACK or RESTART_LIMIT that
ends its message (R158, R162; notes/assumptions/2.md). -/
def State.headOut (s : State) (x : Sub) : Bool := (s.side x).plan == .exhausted || s.restartsOut x

/-- The head is PAUSED. -/
def State.headPaused (s : State) (x : Sub) : Bool :=
  match s.head x with
  | some i => (s.slot i).state == .paused
  | none => false

/-- A head that has reached a limit is neither resumed nor restarted as its subscription is back: it is SENDING, as R152 has it,
and plans nothing. -/
def State.keepOut (s : State) (x : Sub) : State :=
  match s.head x with
  | none => s
  | some i =>
    let s := if (s.slot i).state = .paused then s.slotUpd i false fun o => { o with state := .sending } else s
    s.modSide x fun d => { d with pause := none }

/-- A SENDING head becomes PAUSED and its pause timer starts; none runs for a head that has reached a limit. -/
def State.pauseHead (s : State) (x : Sub) : State :=
  match s.head x with
  | none => s
  | some i =>
    if (s.slot i).state = .sending then
      (s.slotUpd i false fun o => { o with state := .paused }).modSide x fun d =>
        { d with pause := if s.headOut x then none else some (s.now + pauseTime), plan := if d.plan = .exhausted then .exhausted else .none }
    else s

/-- The head resumes: it is SENDING under its ref (R162). A segment still in flight is settled before the next is sent
(R155; notes/assumptions/76.md). -/
def State.resumeHead (s : State) (x : Sub) : State :=
  match s.head x with
  | none => s
  | some i =>
    (s.slotUpd i true fun o => { o with state := .sending }).modSide x fun d =>
      { d with pause := none, plan := if d.flight.isSome then .none else .nextEvent }

/-- The head restarts under a new ref; one whose restart brings the count to 4 is SENDING, plans nothing and waits for
RESTART_LIMIT (R162). -/
def State.restartHead (s : State) (x : Sub) : State :=
  match s.head x with
  | none => s
  | some i =>
    let r := (s.slot i).restarts + 1
    if restartMax ≤ r then
      (s.slotUpd i true fun o => { o with state := .sending, restarts := restartMax }).modSide x fun d =>
        { d with plan := .none, pause := none }
    else
      let ref := (s.side x).nextRef
      (s.slotUpd i true fun o =>
        { o with state := .sending, ref := ref, restarts := r, acked := 0, attempts := 0 }).modSide x fun d =>
        { d with nextRef := d.nextRef + 1, flight := none, plan := .nextEvent, sentRef := false, pause := none }

/-- The text unit is told that the subscription is back on a serving cell, and whether the cell has changed (R162). -/
def State.textsBack (s : State) (x : Sub) (changed : Bool) : State :=
  if s.headOut x then s.keepOut x
  else if changed && (s.side x).sentRef then s.restartHead x else s.resumeHead x

/-- The text unit is told that the subscription has left service (R161): the head pauses and its segment in flight is
abandoned. -/
def State.textsLost (s : State) (x : Sub) : State := (s.pauseHead x).abandon x

/-- Every slot of the subscription's queue FAILED, and the queue emptied (R61, R151); going OFF abandons the segment in
flight (R161). -/
def State.failQueue (s : State) (x : Sub) (c : FailCause) : State :=
  let s := s.withdraw x fun o => match (s.side x).flight with
    | some f => o.handle == f.handle && o.kind == .txOpen && !o.started
    | none => false
  let back := if c = .noService ∧ (s.side x).flight.isSome then 1 else 0
  let s' := (s.side x).queue.foldl (fun s' i =>
    s'.slotUpd i true fun o =>
      { o.finish .failed s.now with cause := c, attempts := if s.head x = some i then o.attempts - back else o.attempts }) s
  s'.modSide x fun d => { d with queue := [], flight := none, plan := .none, sentRef := false, pause := none }

/-! ### Reassembly (R163 to R167) -/

/-- The reassembly context known to a key. -/
def State.reasmOf (s : State) (x : Sub) (ref : Ref) : Option (Fin 4) :=
  allReasm.find? fun r => let c := s.txu.reasm[r]; c.state != .idle && c.sub == x && c.ref == ref

/-- The lowest IDLE reassembly context. -/
def State.idleReasm (s : State) : Option (Fin 4) := allReasm.find? fun r => s.txu.reasm[r].state == .idle

/-- The segments of the listed indexes are all held. -/
def Reasm.holdsAll (c : Reasm) (l : List (Fin 8)) : Bool := l.all fun i => c.segs[i].isSome

/-- A segment disagrees with the last index (R164). -/
def Reasm.disagrees (c : Reasm) (i : Fin 8) (last : Bool) : Bool :=
  match c.last with
  | some l => decide (l < i) || (last && i != l)
  | none => last && allSlots.any fun j => decide (i < j) && c.segs[j].isSome

/-- A segment stored (R164). -/
def Reasm.store (c : Reasm) (i : Fin 8) (last : Bool) (payload : List Byte) (now : Nat) : Reasm :=
  { c with segs := c.segs.set i (some payload), last := if last then some i else c.last, lastTime := now }

/-- Every index from 0 to the last is held (R166). -/
def Reasm.whole (c : Reasm) : Bool :=
  match c.last with
  | some l => c.holdsAll (allSlots.filter fun i => decide (i ≤ l))
  | none => false

/-- The message of a whole context: the held segments in index order (R168). -/
def Reasm.message (c : Reasm) : List Byte := allSlots.flatMap fun i => (c.segs[i]).getD []

/-- The number of segments held. -/
def Reasm.held (c : Reasm) : Nat := (allSlots.filter fun i => c.segs[i].isSome).length

/-- The contexts of the subscription that `p` picks become IDLE with nothing sent (R167). -/
def State.dropReasm (s : State) (p : Reasm → Bool) : State :=
  allReasm.foldl (fun s r => if p s.txu.reasm[r] then s.modReasm r fun _ => Reasm.idle else s) s

/-- The subscription's COLLECTING contexts are discarded (R167). -/
def State.dropCollecting (s : State) (x : Sub) : State :=
  s.dropReasm fun c => c.state == .collecting && c.sub == x

/-- The lowest inbox slot free to the text unit (R168). -/
def State.freeInbox (s : State) : Option (Fin 8) :=
  allSlots.find? fun i => (s.txu.inbox[i]).release == (s.txu.inbox[i]).fill

/-- A message written into an inbox slot, the body's bytes beyond it 0 (R168, R195). -/
def InSlot.deliver (i : InSlot) (c : Reasm) (now : Nat) : InSlot :=
  let m := c.message
  { i with body := m ++ List.replicate (messageMax - m.length) 0, length := m.length, segments := c.held, sub := c.sub, ref := c.ref,
           time := now, fill := i.release + 1, change := i.change + 1 }

/-- The COMPLETE-WAITING context that has waited longest, the lowest-numbered of equals (R166; notes/assumptions/75.md). -/
def State.oldestWaiting (s : State) : Option (Fin 4) :=
  allReasm.foldl (fun best r =>
    let c := s.txu.reasm[r]
    if c.state = .completeWaiting then
      match best with
      | some b => if c.complete < (s.txu.reasm[b]).complete then some r else some b
      | none => some r
    else best) none

/-- The oldest waiting message delivered into the lowest free slot, if there are both (R166). -/
def State.deliverOne (s : State) : State :=
  match s.oldestWaiting, s.freeInbox with
  | some r, some i =>
    let c := s.txu.reasm[r]
    ((s.modInbox i fun b => b.deliver c s.now).modReasm r fun c => { c with state := .deliveredUnacked }).raise .inbox
  | _, _ => s

/-- Waiting messages delivered for as long as free slots remain (R166). -/
def State.deliverWaiting (s : State) : State := s.deliverOne.deliverOne.deliverOne.deliverOne

/-- The outcome of a receipt (R165): the receipt of the last segment, ended DONE, lets its context go. -/
def State.receiptOutcome (s : State) (x : Sub) (ref : Ref) (waiter : Option (Fin 4)) (e : Ending) : State :=
  match waiter, e with
  | some r, .done =>
    let c := s.txu.reasm[r]
    if c.state = .deliveredUnacked ∧ c.sub = x ∧ c.ref = ref then s.modReasm r fun _ => Reasm.idle else s
  | _, _ => s

/-- The pending receipts of the subscription lapse. -/
def State.dropReceipts (s : State) (x : Sub) : State :=
  { s with txu := { s.txu with receipts := s.txu.receipts.filter fun r => r.sub != x } }

end Sys2Proof.Machine
end

