-- ==== Sys2Proof/Machine/Voice.lean ====
section
/-! DEFINITION. The call unit's own records (chapter 8): which call is radio-holding, the uplink status entries, the
downlink voice cells and the frame base. -/

namespace Sys2Proof.Machine

/-- The radio-holding states (R132). -/
def radioHolding (st : CallState) : Bool :=
  match st with
  | .dialling | .answering | .active | .moving | .releasing => true
  | _ => false

/-- The call context is radio-holding. -/
def State.holding (s : State) (k : Fin 4) : Bool := radioHolding (s.call k).part.state

/-- Some call context of the part is radio-holding (R132). -/
def State.anyHolding (s : State) : Bool := allCalls.any s.holding

/-- The subscription's radio-holding call context. -/
def State.callOf (s : State) (x : Sub) : Option (Fin 4) :=
  allCalls.find? fun k => s.holding k && (s.call k).part.owner == x

/-- The subscription's RINGING context (R138). -/
def State.ringingOf (s : State) (x : Sub) : Option (Fin 4) :=
  allCalls.find? fun k => (s.call k).part.state == .ringing && (s.call k).part.owner == x

/-- The handover machine carries out an order or reverts: EXECUTING or REVERTING (R111). -/
def handingOver (m : MachineState) : Bool :=
  match m with
  | .leave | .acquire | .arrive | .reverting => true
  | _ => false

/-! ### Uplink status (R149) -/

/-- The uplink count named by an outcome, increased by 1. -/
def UpCounts.add (c : UpCounts) (o : UpOutcome) : UpCounts :=
  match o with
  | .sent => { c with sent := satInc max16 c.sent }
  | .missing => { c with missing := satInc max16 c.missing }
  | .stolen => { c with stolen := satInc max16 c.stolen }
  | .lent => { c with lent := satInc max16 c.lent }
  | .inhibited => { c with inhibited := satInc max16 c.inhibited }
  | .suspended => { c with suspended := satInc max16 c.suspended }
  | .dropped => { c with dropped := satInc max16 c.dropped }
  | .none | .taken => c

/-- The voice cell of a frame (R148). -/
def cellIndex (f : Frame) : Fin 8 := Fin.ofNat 8 f.toNat

/-- An uplink status entry written for frame `f`, with its count (R149). -/
def State.upWrite (s : State) (k : Fin 4) (f : Frame) (o : UpOutcome) : State :=
  s.callStatusUpd k fun p =>
    { p with status := p.status.set (cellIndex f) { frame := f, outcome := o }, ups := p.ups.add o }

/-- The final outcome of frame `f`, written if the entry still names the frame (R149). -/
def State.upFinal (s : State) (k : Fin 4) (f : Frame) (o : UpOutcome) : State :=
  if ((s.call k).part.status[cellIndex f]).frame = f then s.upWrite k f o else s

/-- What a frame's uplink request carries. -/
inductive UpRequest
  | voice
  | silence
  | stolen
  deriving DecidableEq, Repr

/-- The final outcome of a frame's request, by how its occupancy ended (R149). -/
def upEnding (r : UpRequest) (e : Ending) : UpOutcome :=
  match e with
  | .denied .lent => .lent
  | .denied .inhibit => .inhibited
  | .aborted true => .inhibited
  | .aborted false => .dropped
  | .done =>
    match r with
    | .voice => .sent
    | .silence => .missing
    | .stolen => .stolen
  | .denied _ | .missed | .silent =>
    match r with
    | .stolen => .stolen
    | _ => .dropped

/-- The request an uplink occupancy was. -/
def Occ.upRequest (o : Occ) : UpRequest :=
  match o.kind, o.content with
  | .txStolen, _ => .stolen
  | _, .send _ .silence => .silence
  | _, _ => .voice

/-! ### Downlink cells (R150) -/

/-- The downlink count named by an outcome, increased by 1. -/
def DownCounts.add (c : DownCounts) (o : DownOutcome) : DownCounts :=
  match o with
  | .received => { c with received := satInc max16 c.received }
  | .bad => { c with bad := satInc max16 c.bad }
  | .lost => { c with lost := satInc max16 c.lost }
  | .stolen => { c with stolen := satInc max16 c.stolen }
  | .lent => { c with lent := satInc max16 c.lent }
  | .suspended => { c with suspended := satInc max16 c.suspended }
  | .none => c

/-- The end of a slot of a frame, by the present prediction. -/
def Ctx.slotEnd (c : Ctx) (f : Frame) (slot : Nat) : Nat := c.startOf f + slotLen * (slot + 1)

/-- The predicted end of the down slot of a pending downlink frame: by its context's present prediction while that follows
the cell under the same allocation, and as planned otherwise; without a down slot, the frame's start. -/
def State.downDue (s : State) (p : DownPending) : Nat :=
  let c := s.ctx p.ctx
  if c.alloc = p.alloc ∧ c.follows then
    if p.slot = 0 then c.startOf p.frame else c.slotEnd p.frame p.slot
  else p.planned

/-- The time written into the downlink cell (notes/assumptions/12.md for a call without a down slot). -/
def State.downTime (s : State) (p : DownPending) : Nat :=
  if p.slot = 0 then Config.downEndWithoutSlot (s.downDue p) % 2 ^ 48 else s.downDue p

/-- A downlink cell written (R150): the payload bytes keep what they held where the length is 0. -/
def DownCell.write (d : DownCell) (p : DownPending) (o : DownOutcome) (payload : List Byte) (time : Nat) : DownCell :=
  { frame := p.frame, outcome := o, epoch := p.epoch, length := payload.length, time := time,
    payload := payload ++ d.payload.drop payload.length, change := d.change + 1 }

/-- A pending downlink frame's cell and count written: VOICE is raised for the cell and CALLS for the count (R131, R150). -/
def State.downWrite (s : State) (k : Fin 4) (p : DownPending) : State :=
  match p.outcome with
  | none => s
  | some (o, payload) =>
    let t := s.downTime p
    let s := s.modCall k fun c =>
      { c with cells := c.cells.set (cellIndex p.frame) ((c.cells[cellIndex p.frame]).write p o payload t)
               pends := c.pends.filter fun q => q.frame != p.frame }
    (s.callUpd k fun r => { r with downs := r.downs.add o }).raise .voice

/-- A downlink frame is ready to be written: its outcome is known and its predicted end has come (R150). -/
def State.downReady (s : State) (p : DownPending) : Bool := p.outcome.isSome && decide (s.downDue p ≤ s.now)

/-- The downlink frames that `p` picks written, in order. -/
def State.flush (s : State) (k : Fin 4) (p : DownPending → Bool) : State :=
  ((s.call k).pends.filter p).foldl (fun s q => s.downWrite k q) s

/-- A frame's downlink outcome becomes known. -/
def State.downOutcome (s : State) (k : Fin 4) (f : Frame) (o : DownOutcome) (payload : List Byte) : State :=
  s.modCall k fun c =>
    { c with pends := c.pends.map fun p => if p.frame = f then { p with outcome := some (o, payload) } else p }

/-- The downlink outcome of an RX-VOICE that did not end DONE (R150). -/
def downEnding (e : Ending) : DownOutcome :=
  match e with
  | .denied .lent => .lent
  | _ => .lost

/-- A voice frame offered by context `c`: its downlink is to be written and its frame base (R148, R150). -/
def State.expectDown (s : State) (k : Fin 4) (c : Fin 3) (f : Frame) (o : Option DownOutcome) : State :=
  let x := s.ctx c
  s.modCall k fun call =>
    let slot := call.part.down
    let p : DownPending :=
      { frame := f, ctx := c, alloc := x.alloc, slot := slot,
        planned := if slot = 0 then x.startOf f else x.slotEnd f slot,
        epoch := call.part.epoch, outcome := o.map fun o => (o, []) }
    { call with pends := call.pends ++ [p], bases := call.bases ++ [f] }

/-! ### Contexts afresh (R132) -/

/-- A downlink cell emptied (R132): an update where it changes a field. -/
def DownCell.emptied (d : DownCell) : DownCell :=
  let e := { d with frame := 0, outcome := .none, length := 0 }
  if e = d then d else { e with change := d.change + 1 }

/-- The downlink cells of a context emptied (R132). -/
def emptyCells (cells : Vector DownCell 8) : Vector DownCell 8 :=
  allSlots.foldl (fun v (i : Fin 8) => v.set i (v[i]).emptied) cells

/-- The part-written half of a context that takes a call ref (R132), as one update's fields. -/
def CallRec.afresh (r : CallRec) (x : Sub) (ref : Ref) (st : CallState) : CallRec :=
  { r with state := st, owner := x, cause := .none, causeByte := 0, ref := ref, down := 0, up := 0, epoch := 0,
           startTime := 0, endTime := 0, ups := UpCounts.zero, downs := DownCounts.zero,
           status := Vector.replicate 8 UpEntry.empty }

/-- The call context after it has taken a call ref: working state of its last call gone. -/
def Call.afresh (c : Call) : Call :=
  { c with cells := emptyCells c.cells, ring := none, access := none, release := none, bases := [], pends := [] }

/-- The subscription's next call ref taken (R132). -/
def State.takeRef (s : State) (x : Sub) : State :=
  { s with clu := { s.clu with nextRef := s.clu.nextRef.set x (s.clu.nextRef.get x + 1) } }

/-- An ACCESS (DECLINE) kept for the subscription, or none (R139). -/
def State.setDecline (s : State) (x : Sub) (r : Option Ref) : State :=
  { s with clu := { s.clu with decline := s.clu.decline.set x r } }

end Sys2Proof.Machine
end

