-- ==== Sys2Proof/Machine/Cells.lean ====
section
/-! DEFINITION. The cell measurement unit's records (chapter 5): the record for a key, roles, samples, the filter and the
trips, guests and folding, marks, measurement order and probes. -/

namespace Sys2Proof.Machine

/-! ### Marks and roles -/

/-- A mark is in force while its time is later than the present (R95, R96). -/
def inForce (mark now : Nat) : Bool := decide (now < mark)

def State.barred (s : State) (x : Sub) (r : Fin 18) : Bool := inForce (s.cell x r).barredUntil s.now
def State.quiet (s : State) (x : Sub) (r : Fin 18) : Bool := inForce (s.cell x r).quietUntil s.now

/-- A record is in use as taken: its role is not NONE (R80). -/
def CellRec.used (c : CellRec) : Bool := c.role != .none

/-- A record is locked: SERVING or TARGET (R78). -/
def CellRec.locked (c : CellRec) : Bool := c.role == .serving || c.role == .target

/-- The record for a key in a table (R79): the locked one among those that hold it, the lower-indexed where a SERVING and a
TARGET record both do (notes/assumptions/91.md), otherwise the lowest-indexed. -/
def State.recordFor (s : State) (x : Sub) (k : Key) : Option (Fin 18) :=
  let holds := fun r => (s.cell x r).used && (s.cell x r).key == k
  match allRecs.find? fun r => holds r && (s.cell x r).locked with
  | some r => some r
  | none => allRecs.find? holds

/-- The record that holds a role. -/
def State.recordIn (s : State) (x : Sub) (role : CellRole) : Option (Fin 18) :=
  allRecs.find? fun r => (s.cell x r).role == role

/-- A record with a new role: one that becomes SERVING or leaves it has WEAK live clear and fail run 0 (R78). -/
def CellRec.withRole (c : CellRec) (role : CellRole) : CellRec :=
  if c.role = role then c
  else if c.role = .serving ∨ role = .serving then { c with role := role, weakLive := false, failRun := 0 }
  else { c with role := role }

/-- A role given to a record (R78). -/
def State.setRole (s : State) (x : Sub) (r : Fin 18) (role : CellRole) : State :=
  s.cellSet x r fun c => c.withRole role

/-- Every record of one role takes another. -/
def State.moveRole (s : State) (x : Sub) (old new : CellRole) : State :=
  allRecs.foldl (fun s r => if (s.cell x r).role = old then s.setRole x r new else s) s

/-- The serving record gives up its role (R78). -/
def State.dropServing (s : State) (x : Sub) : State := s.moveRole x .serving .neighbour

/-- A record held as TARGET returns to NEIGHBOUR (R78). -/
def State.dropTarget (s : State) (x : Sub) : State := s.moveRole x .target .neighbour

/-- TARGET given to a record: another that holds it returns to NEIGHBOUR (R78). -/
def State.giveTarget (s : State) (x : Sub) (r : Fin 18) : State :=
  if (s.cell x r).role = .target then s else (s.dropTarget x).setRole x r .target

/-- Every dwell count of the table set to 0; one already 0 is not written (R101). -/
def State.zeroDwell (s : State) (x : Sub) : State :=
  allRecs.foldl (fun s r => s.cellSet x r fun c => { c with dwell := 0 }) s

/-- The barred mark of the record for a key (R95). -/
def State.barMark (s : State) (x : Sub) (k : Key) : State :=
  match s.recordFor x k with
  | some r => s.cellUpd x r fun c => { c with barredUntil := s.now + barredTime }
  | none => s

/-- The quiet mark of the record for a key (R96). -/
def State.quietMark (s : State) (x : Sub) (k : Key) (t : Nat) : State :=
  match s.recordFor x k with
  | some r => s.cellUpd x r fun c => { c with quietUntil := s.now + t }
  | none => s

/-- The sync-reject count of the record for a key (R4); a count already at 65535 is not updated (notes/assumptions/10.md). -/
def State.syncReject (s : State) (x : Sub) (k : Key) : State :=
  match s.recordFor x k with
  | some r => s.cellSet x r fun c => { c with syncRejects := satInc max16 c.syncRejects }
  | none => s

/-! ### Samples (R84 to R88) -/

/-- The sample value of a raw level (R84). -/
def sampleOf (raw : Nat) : Nat := min 200 raw

/-- The filtered level after a sample (R85). -/
def filtered (c : CellRec) (k smp : Nat) : Nat :=
  if c.count = 0 then 16 * smp
  else ((c.level : Int) + ((16 * smp : Int) - c.level).tdiv (2 ^ k)).toNat

/-- The WEAK trip (R86). -/
def CellRec.weakTrip (c : CellRec) (tweak hw : Nat) : CellRec :=
  if c.level < 16 * tweak then
    if c.weakLive then c else { c with weakLive := true, weakSeen := true }
  else if 16 * (tweak + hw) ≤ c.level then { c with weakLive := false }
  else c

/-- The fail run (R88): tested at each sample in CONNECTED, at the sample of a served window in CAMPED. -/
def CellRec.failTrip (c : CellRec) (st : SubState) (served : Bool) (tfail : Nat) : CellRec :=
  if st = .connected ∨ (st = .camped ∧ served = true) then
    if c.level < 16 * tfail then { c with failRun := satInc max8 c.failRun } else { c with failRun := 0 }
  else c

/-- A record after a sample, trips included (R84). -/
def CellRec.sampled (c : CellRec) (set : SubSettings) (st : SubState) (served : Bool) (evals smp time : Nat) : CellRec :=
  let c := { c with level := filtered c set.k smp, lastSample := smp, lastTime := time,
                    count := satInc max16 c.count, evalNo := evals }
  if c.role = .serving then (c.weakTrip set.tweak set.hw).failTrip st served set.tfail else c

/-- A sample taken into the record for a key (R84): one update. `served` says that it is the sample of a served paging
window. -/
def State.sample (s : State) (x : Sub) (k : Key) (raw time : Nat) (served : Bool) : State :=
  match s.recordFor x k with
  | none => s
  | some r =>
    s.cellUpd x r fun c => c.sampled (s.set x) (s.sub x).state served (s.sub x).evals (sampleOf raw) time

/-- The fail run set to 0 when the subscription passes between CAMPED and CONNECTED (R88). -/
def State.clearFailRun (s : State) (x : Sub) : State :=
  match s.recordIn x .serving with
  | some r => s.cellSet x r fun c => { c with failRun := 0 }
  | none => s

/-! ### Initialisation, guests and folding (R80 to R83) -/

/-- A record initialised with a key and a role (R80). -/
def CellRec.init (c : CellRec) (k : Key) (role : CellRole) : CellRec :=
  { c with role := role, key := k, level := 0, lastSample := 0, lastTime := 0, count := 0, evalNo := 0, dwell := 0,
           weakLive := false, weakSeen := false, failRun := 0, barredUntil := 0, quietUntil := 0, syncRejects := 0,
           probeLevel := none }

/-- The part-written state of `a` copied over that of `b`, but for the two taken stamps, the probe level and the change
count (R81, R83). -/
def CellRec.copyState (b a : CellRec) : CellRec :=
  { b with role := a.role, key := a.key, level := a.level, lastSample := a.lastSample, lastTime := a.lastTime,
           count := a.count, evalNo := a.evalNo, dwell := a.dwell, weakLive := a.weakLive, weakSeen := a.weakSeen,
           failRun := a.failRun, barredUntil := a.barredUntil, quietUntil := a.quietUntil,
           syncRejects := a.syncRejects }

/-- The age of a guest for taking: a guest with no sample is the earliest (R82). -/
def guestAge (c : CellRec) : Nat := if c.count = 0 then 0 else c.lastTime + 1

/-- The guest to be taken (R82). -/
def State.guestToTake (s : State) (x : Sub) : Fin 18 :=
  let a := s.cell x 16
  let b := s.cell x 17
  if a.role = .none then 16
  else if b.role = .none then 17
  else if a.locked then 17
  else if b.locked then 16
  else if guestAge b < guestAge a then 17
  else 16

/-- A candidate's index follows its record from `old` to `new`. -/
def candidateMoved (old new : Fin 18) (c : Key × Fin 18) : Key × Fin 18 := if c.2 = old then (c.1, new) else c

/-- A mark of a MEASURE granted follows its record from `old` to `new`. -/
def Measured.moved (x : Sub) (old new : Fin 18) (m : Measured) : Measured :=
  if m.sub = x ∧ m.record = old then { m with record := new } else m

/-- The marks of MEASUREs granted follow a record that has moved (R81, R83, R89). -/
def State.followMeasured (s : State) (x : Sub) (old new : Fin 18) : State :=
  allCtx.foldl (fun s c => s.modCtx c fun t => { t with measured := t.measured.map (Measured.moved x old new) }) s

/-- The serving index, the target index, the candidate of a reselection in hand and the marks of MEASUREs granted follow a
record that has moved (R81, R83, R89, R109). SUBS is raised with CELLS where the record is SERVING or TARGET, at a move and at a
fold (notes/assumptions/73.md). -/
def State.follow (s : State) (x : Sub) (old new : Fin 18) : State :=
  let s := s.raiseIf (s.cell x new).locked .subs
  let s := if (s.sub x).serving = some old then s.subUpd x fun r => { r with serving := some new } else s
  (s.followMeasured x old new).modMbu x fun m =>
    { m with inHand := m.inHand.map (candidateMoved old new)
             machine := { m.machine with candidate := m.machine.candidate.map (candidateMoved old new) } }

/-- A guest taken for another record: a reselection in hand whose candidate it held has lost its record (R82, R109). -/
def State.takeGuest (s : State) (x : Sub) (g : Fin 18) (f : CellRec → CellRec) : State :=
  (s.modMbu x fun m => { m with inHand := m.inHand.filter fun c => c.2 != g }).cellUpd x g f

/-- A locked host record moved to a guest (R81). -/
def State.moveToGuest (s : State) (x : Sub) (r : Fin 18) : State :=
  let g := s.guestToTake x
  let a := s.cell x r
  (s.takeGuest x g fun c => (c.init a.key .none).copyState a).follow x r g

/-- One guest folded into the lowest host record in use that holds its key (R83). -/
def State.foldGuest (s : State) (x : Sub) (g : Fin 18) : State :=
  let a := s.cell x g
  if a.used then
    match hostRecs.find? fun r => (s.cell x r).used && (s.cell x r).key == a.key with
    | some r =>
      ((s.cellUpd x r fun c => c.copyState a).cellUpd x g fun c => c.init Key.zero .none).follow x g r
    | none => s
  else s

/-- The record for a key, or a guest taken for it with the role TARGET (R82, R117). -/
def State.targetRecord (s : State) (x : Sub) (k : Key) : State :=
  match s.recordFor x k with
  | some r => s.giveTarget x r
  | none => s.takeGuest x (s.guestToTake x) fun c => c.init k .target

/-! ### Probes (R93, R94) -/

/-- A pending probe completed with a level or with NONE (R94). -/
def State.completeProbe (s : State) (x : Sub) (r : Fin 18) (level : Option Nat) : State :=
  match (s.cell x r).probe with
  | some t => s.cellUpd x r fun c => { c with probeLevel := level, probeTaken := t, probe := none }
  | none => s

/-- Every pending probe of the subscription completed with NONE (R94). -/
def State.dropProbes (s : State) (x : Sub) : State := hostRecs.foldl (fun s r => s.completeProbe x r none) s

/-- The subscription holds a serving cell: CAMPED, CONNECTED or MOVING (R59). -/
def State.served (s : State) (x : Sub) : Bool :=
  match (s.sub x).state with
  | .camped | .connected | .moving => true
  | _ => false

/-- The probe that is measured next: the lowest-indexed pending one, while no probe of the subscription is in the plan
list (R93). -/
def State.nextProbe (s : State) (x : Sub) : Option (Fin 18) :=
  let busy := s.rpl.plan.any fun o => o.asks x && (match o.content with | .level _ (some _) => true | _ => false)
  if busy then none else hostRecs.find? fun r => (s.cell x r).probe.isSome && (s.cell x r).used

/-! ### The take of one host record (R80, R87, R93) -/

/-- The weak-clear stamp (R87). -/
def CellRec.weakClear (c : CellRec) (t : Stamp) : CellRec :=
  if t = c.weakTaken then c
  else { c with weakTaken := t, weakSeen := c.weakSeen && c.weakLive }

/-- The probe stamp: one that differs from the taken stamp makes a probe pending, and while one is pending the stamp just taken
is the one to be answered, also where it has gone back to the taken stamp's value (R93, R94; notes/assumptions/61.md). -/
def CellRec.probePost (c : CellRec) (t : Stamp) : CellRec :=
  if t = c.probeTaken ∧ c.probe = none then c else { c with probe := some t }

/-- A host record comes into use, goes out of use or changes its key (R80). -/
def changesUse (c : CellRec) (h : CellSettings) : Bool := c.used != h.inUse || (c.used && h.inUse && c.key != h.key)

/-- A host record's change of use or key (R80, R81). -/
def State.takeUse (s : State) (x : Sub) (r : Fin 18) (h : CellSettings) : State :=
  if changesUse (s.cell x r) h then
    let s := if (s.cell x r).locked then s.moveToGuest x r else s
    s.cellUpd x r fun c => c.init h.key (if h.inUse then .neighbour else .none)
  else s

/-- A host record's stamps; a probe of a record not in use, or of a subscription without a serving cell, is settled with
NONE (R87, R93, R94). -/
def State.takeStamps (s : State) (x : Sub) (r : Fin 18) (h : CellSettings) : State :=
  let s := s.cellSet x r fun c => c.weakClear h.weak
  let s := s.modCell x r fun c => { c.probePost h.probe with offset := h.offset }
  if !h.inUse || !s.served x then s.completeProbe x r none else s

/-- One host record taken: its use and key first, with the move of a locked one to a guest, then its stamps. So a clear posted in
the scan that rewrites a locked record finds the record initialised, and the guest keeps WEAK-SEEN (R81, R87;
notes/assumptions/104.md). -/
def State.takeHostRecord (s : State) (x : Sub) (r : Fin 18) : State :=
  let h := s.readCell x r
  (s.takeUse x r h).takeStamps x r h

/-- The host records of a table that the take will change, as notified to the subscription controller (R80). -/
def State.changedRecords (s : State) (x : Sub) : List (Fin 18) :=
  hostRecs.filter fun r => changesUse (s.cell x r) (s.readCell x r)

/-- Both tables' host records taken, in ascending index (notes/assumptions/81.md), then the guests folded, 16 before
17 (R80, R83; notes/assumptions/96.md). -/
def State.takeTables (s : State) : State :=
  let s := allSubs.foldl (fun s x => hostRecs.foldl (fun s r => s.takeHostRecord x r) s) s
  allSubs.foldl (fun s x => guestRecs.foldl (fun s g => s.foldGuest x g) s) s

/-- Every record of a table initialised at START, its taken stamps set to the host's (R77) and its key to 0, 0, which stands
where the take does not bring the record into use (notes/assumptions/36.md). -/
def State.initTable (s : State) (x : Sub) : State :=
  let s := hostRecs.foldl (fun s r =>
    let h := s.readCell x r
    s.cellUpd x r fun c =>
      { c.init Key.zero .none with weakTaken := h.weak, probeTaken := h.probe, probe := none, offset := 0 }) s
  let s := guestRecs.foldl (fun s r => s.cellUpd x r fun c => c.init Key.zero .none) s
  s.modTable x fun t => { t with pointer := 0 }

/-! ### Measurement order (R89) -/

/-- The record is eligible for measurement (R89). -/
def State.measurable (s : State) (x : Sub) (r : Fin 18) : Bool :=
  ((s.cell x r).role == .neighbour || (s.cell x r).role == .target) && !s.barred x r

/-- The next neighbour: the first eligible record at or after the pointer that is not among those already granted. -/
def State.nextNeighbour (s : State) (x : Sub) (granted : List (Fin 18)) : Option (Fin 18) :=
  let p := (s.cmu.get x).pointer.val
  (allRecs.drop p ++ allRecs.take p).find? fun r => s.measurable x r && !granted.contains r

/-- The pointer after a grant for record `r` (R89). -/
def State.setPointer (s : State) (x : Sub) (r : Fin 18) : State := s.modTable x fun t => { t with pointer := r + 1 }

end Sys2Proof.Machine
end

