-- ==== Sys2Proof/Machine/Deliver.lean ====
section
/-! DEFINITION. What passes between the planner, the timing unit and the blocks: delivering an outcome, asking for an
occupancy, freeing a context, a re-anchor, and staging slots (chapters 2, 3). -/

namespace Sys2Proof.Machine

/-! ### Outcomes (R39, R45) -/

/-- The lending count after an outcome of a PAGING that the subscription requested (R45). -/
def lendAfter (n : Nat) (e : Ending) : Nat :=
  match e with
  | .denied _ => satInc max8 n
  | .done => 0
  | _ => n

/-- The lending count of a subscription moves by an outcome (R45). -/
def State.lendOutcome (s : State) (x : Sub) (e : Ending) : State :=
  s.subSet x fun r => { r with lending := lendAfter r.lending e }

/-- A paging window that was missed (R68). -/
def State.windowMissed (s : State) (x : Sub) : State :=
  if (s.sub x).state = .camped then s.subSet x fun r => { r with missed := satInc max8 r.missed } else s

/-- The outcome of a PAGING reaches its requester: the lending count, and a window missed by SILENT or ABORTED (R45, R68).
The window of a DONE is decided by its report. -/
def State.pagingOutcome (s : State) (x : Sub) (e : Ending) : State :=
  let s := s.lendOutcome x e
  match e with
  | .silent | .aborted _ => s.windowMissed x
  | _ => s

/-- The outcome of a call's occupancy reaches the call unit (R149, R150): an RX-VOICE whose report brought nothing is
LOST. -/
def State.callOutcome (s : State) (k : Fin 4) (o : Occ) (e : Ending) : State :=
  match o.kind with
  | .rxVoice =>
    if (s.call k).pends.any fun p => p.frame == o.frame && p.outcome.isNone then
      s.downOutcome k o.frame (downEnding e) []
    else s
  | .txVoice | .txStolen => s.upFinal k o.frame (upEnding o.upRequest e)
  | _ => s

/-- An outcome reaches one requester. -/
def State.deliverTo (s : State) (o : Occ) (e : Ending) (x : Sub) : State :=
  match o.who.get x with
  | none => s
  | some w =>
    let s := if w.kind = .paging then s.pagingOutcome x e else s
    match o.call, o.content with
    | some k, _ => s.callOutcome k o e
    | none, .send _ (.textSegment ref _ _ _) => s.segmentOutcome x o.handle ref e
    | none, .send _ (.segmentReceipt ref _ waiter) => s.receiptOutcome x ref waiter e
    | none, _ => s

/-- An outcome delivered once for each requester (R39). -/
def State.deliver (s : State) (o : Occ) (e : Ending) : State := (s.deliverTo o e .a).deliverTo o e .b

/-- Denials delivered in order. -/
def State.deliverDenials (s : State) (l : List (Occ × Denial)) : State :=
  l.foldl (fun s p => s.deliver p.1 (.denied p.2)) s

/-! ### Requests (R37, R41, R44) -/

/-- The planner's answer to a request. -/
inductive Answer
  | granted (handle : Handle)
  | denied (reason : Denial)
  deriving DecidableEq, Repr

/-- A request is denied: a PAGING counts in its requester's lending count (R45). -/
def State.askDenied (s : State) (n : Occ) (r : Denial) : State :=
  allSubs.foldl (fun s x => if n.asksPaging x then s.lendOutcome x (.denied r) else s) s

/-- A newcomer admitted: it takes the next handle that no occupancy of the list holds, those it is about to beat among them
(notes/assumptions/79.md), and what it beat is told (R35, R44). -/
def State.enter (s : State) (n : Occ) : State × Answer :=
  let h := freshHandle s.rpl.plan 256 s.rpl.nextHandle
  let n := { n with handle := h }
  let a := arbitrate s.lend s.rpl.plan n
  match a.denied with
  | some r => (s.askDenied n r, .denied r)
  | none =>
    let s := { s with rpl := { s.rpl with plan := a.plan, nextHandle := h + 1, left := s.rpl.left || !a.out.isEmpty } }
    (s.deliverDenials a.out, .granted h)

/-- A request taken by the planner: denied on entry, merged, or arbitrated (R37, R41, R44). -/
def State.ask (s : State) (n : Occ) : State × Answer :=
  match s.entryDenial n with
  | some r => (s.askDenied n r, .denied r)
  | none =>
    match s.rpl.plan.find? fun o => mergeable n o with
    | some o =>
      ({ s with rpl := { s.rpl with plan := s.rpl.plan.map fun p => if p.handle = o.handle then mergeInto n p else p } },
       .granted o.handle)
    | none => s.enter n

/-- A request whose answer its block does not use. -/
def State.request (s : State) (n : Occ) : State := (s.ask n).1

/-! ### Contexts freed and users removed (R19, R22, R34, R51) -/

/-- The GRANTED occupancies of an earlier allocation leave with DENIED (REALLOCATED) (R51). -/
def State.revoke (s : State) (c : Fin 3) (alloc : Nat) : State :=
  let mine := fun o : Occ => o.ctx == c && o.alloc == alloc && !o.started
  let gone := s.rpl.plan.filter mine
  (s.dropOccs mine).deliverDenials (gone.map fun o => (o, .reallocated))

/-- A context goes FREE (R19). -/
def State.freeCtx (s : State) (c : Fin 3) : State :=
  let old := (s.ctx c).alloc
  let s := s.modCtx c Ctx.freed
  ({ s with tmu := { s.tmu with freed := true } } : State).revoke c old

/-- A subscription's SEEK listens of a context that are still GRANTED are withdrawn when its seek ends (R38). -/
def State.withdrawSeek (s : State) (x : Sub) (c : Fin 3) : State :=
  s.withdraw x fun o => o.kind == .seek && o.ctx == c && !o.started

/-- A context's users without one of them; a staged assignment goes with the last use by its call's subscription (R34). -/
def Ctx.dropUser (c : Ctx) (r : Role) (x : Sub) : Ctx :=
  let c := { c with users := c.users.filter fun u => !(u.role == r && u.sub == x) }
  { c with staged := match c.staged with
      | some g => if g.sub = x ∧ c.hasSub x = false then none else c.staged
      | none => none }

/-- A user removed from a context; the last one's removal frees it (R19). -/
def State.removeUser (s : State) (c : Fin 3) (r : Role) (x : Sub) : State :=
  if (s.ctx c).hasUser r x then
    let s := s.modCtx c fun k => k.dropUser r x
    let s := if isSeek r then s.withdrawSeek x c else s
    if (s.ctx c).users.isEmpty then s.freeCtx c else s
  else s

/-- A deferred request cancelled (R22). -/
def State.cancelDeferred (s : State) (r : Role) (x : Sub) : State :=
  { s with tmu := { s.tmu with deferred := s.tmu.deferred.filter fun d => !(d.role == r && d.sub == x) } }

/-- A block removes its user in a role, wherever it is, and any deferred request for it (R19, R22). -/
def State.removeRole (s : State) (r : Role) (x : Sub) : State :=
  let s := s.cancelDeferred r x
  match s.ctxOf r x with
  | some c => s.removeUser c r x
  | none => s

/-- A user's role becomes SERVING, keeping the context's timing; its seek ends (R19). -/
def State.becomeServing (s : State) (c : Fin 3) (r : Role) (x : Sub) : State :=
  (s.modCtx c fun k =>
    { k with users := k.users.map fun u =>
        if u.role = r ∧ u.sub = x then { role := .serving, sub := x, deadline := none } else u }).withdrawSeek x c

/-! ### Re-anchor (R52) -/

/-- An occupancy shifted by `e` (R52). -/
def Occ.shift (e : Int) (o : Occ) : Occ := { o with start := o.start + e, stop := o.stop + e, issue := o.issue + e }

/-- A shifted occupancy admitted again (R52). -/
def State.readmit (s : State) (n : Occ) : State :=
  let a := arbitrate s.lend s.rpl.plan n
  match a.denied with
  | some r => ({ s with rpl := { s.rpl with left := true } } : State).deliver n (.denied r)
  | none =>
    ({ s with rpl := { s.rpl with plan := a.plan, left := s.rpl.left || !a.out.isEmpty } } : State).deliverDenials a.out

/-- The planner adjusts a context's GRANTED occupancies to a re-anchor (R52). -/
def State.reanchor (s : State) (c : Fin 3) (e : Int) : State :=
  let alloc := (s.ctx c).alloc
  let mine := fun o : Occ => o.ctx == c && o.alloc == alloc && !o.started
  let shifted := (s.rpl.plan.filter mine).map (Occ.shift e)
  let late := shifted.filter fun o => decide (o.issue ≤ (s.now : Int))
  let rest := shifted.filter fun o => decide ((s.now : Int) < o.issue)
  let s := { s with rpl := { s.rpl with plan := s.rpl.plan.filter fun o => !mine o, left := s.rpl.left || !late.isEmpty } }
  let s := late.foldl (fun s o => s.deliver o .missed) s
  rest.foldl State.readmit s

/-! ### Staging (R34) -/

/-- A first send of a RELEASE REQUEST that waited for an up slot may now be made (R127). -/
def Call.releaseMayStart (c : Call) : Call :=
  { c with release := c.release.map fun r => if r.next = .waiting then { r with next := .nextEvent } else r }

/-- A waiting first send of a RELEASE REQUEST may be made where the call holds an up slot and its handover is over (R127). -/
def State.releaseOnSlot (s : State) (x : Sub) (k : Fin 4) : State :=
  if (s.call k).part.up = 0 ∨ handingOver (s.machine x).state = true then s else s.modCall k Call.releaseMayStart

/-- The slots of an assignment handed to the call unit (R34, R145); a RELEASE REQUEST that waits for an up slot has one
(R127). -/
def State.handSlots (s : State) (g : Staged) : State :=
  (s.callUpd g.call fun r => { r with down := g.down, up := g.up }).releaseOnSlot g.sub g.call

/-- A slot assignment staged in a context: held to its frame, or handed at once (R34). -/
def State.stage (s : State) (c : Fin 3) (g : Staged) : State :=
  let hold := match (s.ctx c).lastPlanned with
    | some l => ahead g.frame l
    | none => false
  if hold then s.modCtx c fun k => { k with staged := some g }
  else (s.modCtx c fun k => { k with staged := none }).handSlots g

/-- A staged assignment of a call that has left the radio-holding states is discarded (R34). -/
def State.unstage (s : State) (k : Fin 4) : State :=
  allCtx.foldl (fun s c =>
    match (s.ctx c).staged with
    | some g => if g.call = k then s.modCtx c fun x => { x with staged := none } else s
    | none => s) s

end Sys2Proof.Machine
end

