-- ==== Sys2Proof/Machine/Ranking.lean ====
section
/-! DEFINITION. The mobility unit's ranking (chapter 6): speed class, history list, evaluation, dwell and the trigger. -/

namespace Sys2Proof.Machine

/-! ### Speed class and history (R104, R105) -/

/-- The speed class of a history list at a time (R105). -/
def speedAt (h : List HistoryEntry) (t : Nat) : SpeedClass :=
  let n := (h.filter fun e => decide (t ≤ e.time + speedSpan)).length
  if 4 ≤ n then .high else if 2 ≤ n then .medium else .normal

/-- An entry added at the head; one of the same time is replaced, and the list keeps 8 (R104). -/
def addEntry (e : HistoryEntry) : List HistoryEntry → List HistoryEntry
  | [] => [e]
  | h :: t => if h.time = e.time then e :: t else (e :: h :: t).take historyMax

/-- A cell change entered in the history, and the speed class computed again (R104, R105). -/
def State.addHistory (s : State) (x : Sub) (old new : BitVec 16) (k : ChangeKind) : State :=
  s.subUpd x fun r =>
    let h := addEntry { time := s.now, old := old, new := new, kind := k } r.history
    { r with history := h, speed := speedAt h s.now }

/-! ### Evaluation (R98 to R103) -/

/-- The record is eligible at evaluation `e` (R99), by the freshness test also once the evaluation count has saturated
(notes/assumptions/97.md). -/
def State.eligible (s : State) (x : Sub) (e : Nat) (r : Fin 18) : Bool :=
  let c := s.cell x r
  (c.role == .neighbour || c.role == .target) && !s.barred x r && !s.quiet x r && decide (0 < c.count)
    && decide (e - c.evalNo ≤ freshEvals)

/-- A neighbour's rank Qn (R100). -/
def CellRec.rank (c : CellRec) : Int := (c.level : Int) + 16 * c.offset

/-- The level of the serving record. -/
def State.servingLevel (s : State) (x : Sub) : Nat :=
  match s.recordIn x .serving with
  | some r => (s.cell x r).level
  | none => 0

/-- The serving rank Qs (R100). -/
def State.servingRank (s : State) (x : Sub) : Int := (s.servingLevel x : Int) + 16 * (s.set x).margin

/-- An eligible record is better (R100): at a barred window of a CAMPED subscription every one is. -/
def State.better (s : State) (x : Sub) (barredWindow : Bool) (r : Fin 18) : Bool :=
  barredWindow || decide (s.servingRank x < (s.cell x r).rank)

/-- The required dwell (R102). -/
def requiredDwell (d : Nat) (c : SpeedClass) (barredWindow : Bool) : Nat :=
  if barredWindow then 1
  else max 1 (d * (match c with | .normal => 4 | .medium => 2 | .high => 1) / 4)

/-- The dwell counts of an evaluation (R101). -/
def State.dwellStep (s : State) (x : Sub) (e : Nat) (barredWindow : Bool) : State :=
  allRecs.foldl (fun s r =>
    if s.eligible x e r && s.better x barredWindow r then
      s.cellSet x r fun c => { c with dwell := satInc max8 c.dwell }
    else s.cellSet x r fun c => { c with dwell := 0 }) s

/-- The candidate of an evaluation: the eligible record of sufficient dwell with the greatest rank, the lowest index
among equals (R103). -/
def State.candidate (s : State) (x : Sub) (e dreq : Nat) : Option (Fin 18) :=
  allRecs.foldl (fun best r =>
    if s.eligible x e r && decide (dreq ≤ (s.cell x r).dwell) then
      match best with
      | some b => if (s.cell x b).rank < (s.cell x r).rank then some r else some b
      | none => some r
    else best) none

/-- The report values of a candidate (R103). -/
def State.trigger (s : State) (x : Sub) (r : Fin 18) : Trigger :=
  { index := r, key := (s.cell x r).key,
    difference := min 255 (((s.cell x r).rank - s.servingRank x).toNat / 16),
    level := min 200 (s.servingLevel x / 16) }

/-- An evaluation (R98): the state after its updates, and its trigger. -/
def State.evaluate (s : State) (x : Sub) (barredWindow : Bool) : State × Option Trigger :=
  let s := s.subUpd x fun r =>
    { r with evals := satInc max32 r.evals, speed := speedAt r.history s.now }
  let e := (s.sub x).evals
  let s := s.dwellStep x e barredWindow
  let dreq := requiredDwell (s.set x).dwell (s.sub x).speed barredWindow
  (s, (s.candidate x e dreq).map fun r => s.trigger x r)

/-! ### Idle batches (R91) -/

/-- The size of the batch after a served window (R91). -/
def State.batchSize (s : State) (x : Sub) : Nat :=
  let weak := match s.recordIn x .serving with
    | some r => (s.cell x r).weakLive
    | none => false
  if weak then min 15 (allRecs.filter fun r => s.measurable x r).length
  else if (s.sub x).speed = .high then 4 else 2

end Sys2Proof.Machine
end

