-- ==== Sys2Proof/Machine/Service.lean ====
section
/-! DEFINITION. A subscription's service (chapter 4, with the allocation rules of 2.3 and the endings of chapters 6 and 8):
searches, camping, going OFF, connecting, and what the end of a call leaves. -/

namespace Sys2Proof.Machine

/-! ### Allocation (R20 to R22) -/

/-- The context that holds a key. -/
def State.ctxWith (s : State) (k : Key) : Option (Fin 3) :=
  allCtx.find? fun c => (s.ctx c).state != .free && (s.ctx c).key == k

/-- The lowest-numbered FREE context. -/
def State.freeIndex (s : State) : Option (Fin 3) := allCtx.find? fun c => (s.ctx c).state == .free

/-- A new seek user, its deadline from the present (R28). -/
def State.newUser (s : State) (r : Role) (x : Sub) : User :=
  { role := r, sub := x, deadline := some (s.now + seekTimeout r) }

/-- An allocation request served by the context that holds the key, or by a FREE one (R20, 1 and 2). A context that
pre-emption is taking has no user for the moment, and serves none (R21; notes/assumptions/48.md). -/
def State.tryJoin (s : State) (r : Role) (x : Sub) (k : Key) : Option State :=
  match s.ctxWith k with
  | some c =>
    if (s.ctx c).hasUser r x then some s
    else if (s.ctx c).users ≠ [] ∧ (s.ctx c).users.length < 3 then
      some (s.modCtx c fun t => { t with users := t.users ++ [s.newUser r x] })
    else none
  | none =>
    match s.freeIndex with
    | some c => some (s.modCtx c fun t => t.seekFor k (s.newUser r x) s.now)
    | none => none

/-- A request is deferred: one for each role and subscription (R22). -/
def State.defer (s : State) (r : Role) (x : Sub) (k : Key) : State :=
  let s := s.cancelDeferred r x
  { s with tmu := { s.tmu with deferred := s.tmu.deferred ++ [{ role := r, sub := x, key := k }] } }

/-! ### Search passes (R64, R65, R67) -/

/-- A host record may be tried: in use, with no barred mark in force (R64). -/
def State.tryable (s : State) (x : Sub) (r : Fin 18) : Bool := (s.cell x r).used && !s.barred x r

/-- A record put into an order by descending filtered level, after those of equal level. -/
def State.byLevel (s : State) (x : Sub) (r : Fin 18) : List (Fin 18) → List (Fin 18)
  | [] => [r]
  | q :: qs => if (s.cell x q).level < (s.cell x r).level then r :: q :: qs else q :: s.byLevel x r qs

/-- The list of a pass (R64). -/
def State.passList (s : State) (x : Sub) : List (Fin 18) :=
  let l := hostRecs.filter fun r => s.tryable x r
  let known := (l.filter fun r => decide (0 < (s.cell x r).count)).foldl (fun a r => s.byLevel x r a) []
  known ++ l.filter fun r => (s.cell x r).count == 0

/-- A search attempt on a record: its key is asked for as a SEARCH user, or waits deferred (R65). -/
def State.attempt (s : State) (x : Sub) (r : Fin 18) (rest : List (Fin 18)) : State :=
  let k := (s.cell x r).key
  let s := s.modSbc x fun b =>
    { b with search := b.search.map fun p => { p with rest := rest, current := some (r, k) } }
  match s.tryJoin .search x k with
  | some s' => s'
  | none => s.defer .search x k

/-- The next attempt on the records listed, each checked again as its turn comes; none when no record is left. -/
def State.tryRecords (s : State) (x : Sub) : List (Fin 18) → Option State
  | [] => none
  | r :: rs => if s.tryable x r then some (s.attempt x r rs) else s.tryRecords x rs

/-- A pass ends in LOST (R64, R67, R94). -/
def State.enterLost (s : State) (x : Sub) (c : ServiceCause) : State :=
  let s := s.modSbc x fun b => { b with search := none, lostRetry := some (s.now + lostWait) }
  (s.subUpd x fun r => { r with state := .lost, cause := c }).dropProbes x

/-- A search pass begins (R64). -/
def State.beginPass (s : State) (x : Sub) : State :=
  let l := s.passList x
  let s := s.modSbc x fun b =>
    { b with search := some { rest := l, current := none, again := [], changed := false }, lostRetry := none }
  match s.tryRecords x l with
  | some s' => s'
  | none => s.enterLost x .noCells

/-- An attempt has ended: the next one, or the pass's end (R64). -/
def State.nextAttempt (s : State) (x : Sub) : State :=
  match (s.sbc.get x).search with
  | none => s
  | some p =>
    let s := s.modSbc x fun b => { b with search := some { p with current := none } }
    match s.tryRecords x p.rest with
    | some s' => s'
    | none => if p.changed then s.beginPass x else s.enterLost x .notFound

/-- A search attempt is PRE-EMPTED: its record is placed once more at the end of the list (R65). -/
def State.searchPreempted (s : State) (x : Sub) : State :=
  (s.modSbc x fun b =>
    { b with search := b.search.map fun p =>
        match p.current with
        | some (r, _) =>
          if p.again.contains r then p else { p with rest := p.rest ++ [r], again := r :: p.again }
        | none => p }).nextAttempt x

/-! ### Pre-emption and retries (R21, R22) -/

/-- The context a request may take by pre-emption: one lone seek user of lower priority, the lowest priority first, then
the lowest number (R21). -/
def State.victim (s : State) (r : Role) : Option (Fin 3 × User) :=
  allCtx.foldl (fun best c =>
    match (s.ctx c).users with
    | [u] =>
      if isSeek u.role && decide (seekPriority r < seekPriority u.role) then
        match best with
        | some (_, v) => if seekPriority v.role < seekPriority u.role then some (c, u) else best
        | none => some (c, u)
      else best
    | _ => best) none

/-- The block of a displaced user is told PRE-EMPTED (R21, R65, R109). -/
def State.tellPreempted (s : State) (u : User) (k : Key) : State :=
  match u.role with
  | .search => s.searchPreempted u.sub
  | .verify => s.modMbu u.sub fun m => { m with inHand := none, setAside := some k }
  | _ => s

/-- A context taken by pre-emption, in the order of R21: the displaced user is removed and its block told, then the context
starts a new allocation under the requester's key. What the block asks for as it is told finds the context still under its old
key and without a user, so an attempt on either key is DEFERRED (notes/assumptions/48.md). -/
def State.preempt (s : State) (c : Fin 3) (u : User) (r : Role) (x : Sub) (k : Key) : State :=
  let old := s.ctx c
  let s := (s.modCtx c fun t => { t with users := [] }).tellPreempted u old.key
  (s.modCtx c fun t => t.seekFor k (s.newUser r x) s.now).revoke c old.alloc

/-- An allocation request (R20). -/
def State.allocate (s : State) (r : Role) (x : Sub) (k : Key) : State :=
  match s.tryJoin r x k with
  | some s' => s'
  | none =>
    if (s.ctxWith k).isSome then s.defer r x k
    else
      match s.victim r with
      | some (c, u) => s.preempt c u r x k
      | none => s.defer r x k

/-- The order in which deferred requests contend (R22). -/
def retryOrder : List (Role × Sub) :=
  [(.target, .a), (.target, .b), (.verify, .a), (.verify, .b), (.search, .a), (.search, .b)]

/-- The deferred requests that `p` picks are retried (R22). One that a retry itself brings about, by pre-emption, is not among
them (R21). -/
def State.retry (s : State) (p : Deferred → Bool) : State :=
  let stood := s.tmu.deferred
  retryOrder.foldl (fun s o =>
    match s.tmu.deferred.find? fun d => d.role == o.1 && d.sub == o.2 with
    | some d => if p d && stood.contains d then (s.cancelDeferred d.role d.sub).allocate d.role d.sub d.key else s
    | none => s) s

/-! ### Paging windows (R68) -/

/-- The first paging window ahead of a frame (R68). -/
def nextWindow (set : SubSettings) (f : Frame) : Frame :=
  let d := (set.offset + set.cycle - f.toNat % set.cycle) % set.cycle
  plusFrames f (if d = 0 then set.cycle else d)

/-- A window named to the serving context. -/
def State.nameWindow (s : State) (x : Sub) (f : Frame) : State :=
  s.modSbc x fun b => { b with window := some (nextWindow b.set f) }

/-- The first window ahead of frame `f` named to context `c`; one that `c` has already offered is passed over for the first
ahead of its last planned frame (R66, R68; notes/assumptions/28.md). -/
def State.nameWindowIn (s : State) (x : Sub) (c : Fin 3) (f : Frame) : State :=
  s.nameWindow x (match (s.ctx c).lastPlanned with
    | some l => if ahead l f then l else f
    | none => f)

/-- No window is named. -/
def State.noWindow (s : State) (x : Sub) : State := s.modSbc x fun b => { b with window := none }

/-! ### Listen periods (R71, R72) -/

/-- A listen period's end frame, set to 200 frames after frame `f`. -/
def State.listenFrom (s : State) (x : Sub) (f : Frame) : State :=
  s.subUpd x fun r => { r with listenEnd := some (plusFrames f listenFrames) }

/-- A listen period ends (R72). -/
def State.endListen (s : State) (x : Sub) : State :=
  match (s.sub x).listenEnd with
  | none => s
  | some _ =>
    (s.subUpd x fun r => { r with listenEnd := none }).withdraw x fun o => o.asksFor x .listen && !o.started

/-! ### Areas (R73) -/

/-- An area code taken from the serving cell: an area change where it differs from the recorded one, or where there is
none to compare with (R73). -/
def State.areaTest (s : State) (x : Sub) (area : BitVec 12) : State :=
  let b := s.sbc.get x
  if b.areaKnown && b.part.servingArea == area then s
  else
    let old := if b.areaKnown then some b.part.servingArea else none
    let s := s.modSbc x fun b => { b with areaKnown := true }
    s.subUpd x fun r =>
      { r with prevArea := if r.areaFlag then r.prevArea else old, areaFlag := true, servingArea := area,
               areaStamp := r.areaStamp + 1 }

/-! ### Reselection in hand (R106, R109) -/

/-- The reselection in hand is dropped, with its VERIFY user or deferred request (R109). -/
def State.dropReselection (s : State) (x : Sub) : State :=
  (s.modMbu x fun m => { m with inHand := none }).removeRole .verify x

/-- The ranking state of the subscription discarded (R109). -/
def State.discardRanking (s : State) (x : Sub) : State :=
  ((s.dropReselection x).modMbu x fun m => { m with setAside := none }).zeroDwell x

/-- The handover machine's working state cleared, and the machine in the given state (R111). -/
def State.resetMachine (s : State) (x : Sub) (m : MachineState) : State :=
  s.modMachine x fun _ => { HoMachine.reset with state := m }

/-! ### Ending a call context (R147) -/

/-- An occupancy of a call: its own, and the beacons and control listens the subscription hears for it. -/
def ofCall (x : Sub) (k : Fin 4) (held : Bool) (o : Occ) : Bool :=
  o.call == some k || (held && (o.asksFor x .serving || o.asksFor x .target || o.asksFor x .reversion))

/-- The uplink frames whose occupancies are withdrawn at the call's end are DROPPED (R147, R149). -/
def State.dropUplinks (s : State) (k : Fin 4) : State :=
  (s.rpl.plan.filter fun o =>
      o.call == some k && !o.started && (o.kind == .txVoice || o.kind == .txStolen)).foldl
    (fun s o => s.upFinal k o.frame .dropped) s

/-- A call context enters ENDED: the record, the radio and the voice (R147, 1 to 3). No later downlink cell is written; one that
was due by now is (notes/assumptions/87.md), while a frame base that was due is dropped (notes/assumptions/102.md). -/
def State.closeCall (s : State) (k : Fin 4) (cause : CallCause) (byte : BitVec 8) : State :=
  let x := (s.call k).part.owner
  let held := s.holding k
  let s := s.flush k s.downReady
  let s := (s.dropUplinks k).withdraw x (ofCall x k held)
  let s := if held then s.modMachine x fun m => { m with claims := [] } else s
  let s := s.modCall k fun c => { c with ring := none, access := none, release := none, bases := [], pends := [] }
  (s.unstage k).callUpd k fun r =>
    { r with state := .ended, cause := cause, causeByte := byte, endTime := s.now }

/-- The RINGING contexts of a subscription that goes OFF (R139). -/
def State.disableRinging (s : State) (x : Sub) : State :=
  allCalls.foldl (fun s k =>
    if (s.call k).part.state = .ringing ∧ (s.call k).part.owner = x then s.closeCall k .disabled 0 else s) s

/-! ### Leaving service (R61, R63) -/

/-- What the subscription gives up when it leaves its cell: its users, its occupancies, the serving and target roles, its
windows, its handover machine and a decline kept for its cell (R61, R63, R125, R128, R139). It is withdrawn from STARTED
occupancies too, the TX-OPEN of a segment or of a last segment's receipt among them (R38; notes/assumptions/77.md). -/
def State.leaveCell (s : State) (x : Sub) : State :=
  let s := (((s.removeRole .search x).removeRole .verify x).removeRole .target x).removeRole .serving x
  let s := ((s.withdrawAll x).endListen x).noWindow x
  let s := (s.dropServing x).dropTarget x
  let s := s.subSet x fun r => { r with serving := none }
  ((s.resetMachine x .idle).discardRanking x).setDecline x none

/-- The subscription goes OFF (R61). -/
def State.goOff (s : State) (x : Sub) : State :=
  let s := s.leaveCell x
  let s := s.subUpd x fun r => { r with state := .off, cause := .none, history := [] }
  let s := s.modSbc x fun b =>
    { b with search := none, lostRetry := none, disableHeld := false, areaKnown := false }
  let s := ((s.failQueue x .noService).dropReasm fun c => c.sub == x).dropReceipts x
  let s := (s.disableRinging x).dropProbes x
  (s.raise .subs).raise .cells

/-- The subscription enters SEARCHING with a cause and begins a pass (R63, R64, R94, R161, R167). -/
def State.enterSearching (s : State) (x : Sub) (c : ServiceCause) : State :=
  let s := s.leaveCell x
  let s := s.subUpd x fun r => { r with state := .searching, cause := c }
  let s := (((s.textsLost x).dropCollecting x).dropReceipts x).dropProbes x
  s.beginPass x

/-- SEARCHING with a cause, or OFF where a disable is held (R62). -/
def State.searchOrOff (s : State) (x : Sub) (c : ServiceCause) : State :=
  if (s.sbc.get x).disableHeld then s.goOff x else s.enterSearching x c

/-! ### Camping and connecting (R66, R75) -/

/-- The first serving frame that the subscription knows of on its serving context (R68). -/
def State.knownFrame (s : State) (x : Sub) : Frame :=
  match s.servingCtx x with
  | some c => (s.ctx c).lastFrame
  | none => 0

/-- The subscription camps on a record found by its SEARCH user in context `c`, by the beacon of frame `f` (R66). -/
def State.camp (s : State) (x : Sub) (r : Fin 18) (c : Fin 3) (f : Frame) (area : BitVec 12) : State :=
  let s := s.becomeServing c .search x
  let s := ((s.dropServing x).setRole x r .serving).zeroDwell x
  let s := s.areaTest x area
  let s := s.subUpd x fun t =>
    { t with serving := some r, servingCode := (s.cell x r).key.code, servingArea := area, missed := 0, state := .camped }
  let s := (s.modSbc x fun b => { b with search := none, lostRetry := none }).nameWindowIn x c f
  let s := ((s.textsBack x true).dropCollecting x)
  (s.raise .subs).raise .cells

/-- The subscription may be connected (R75). -/
def State.canConnect (s : State) (x : Sub) : Bool := (s.sub x).state == .camped && !(s.sbc.get x).disableHeld

/-- The subscription enters CONNECTED (R75, R88, R109, R111). -/
def State.connect (s : State) (x : Sub) : State :=
  let s := (s.endListen x).withdraw x fun o => o.asksPaging x && !o.started
  let s := (s.noWindow x).dropReselection x
  let s := (s.subUpd x fun r => { r with state := .connected }).clearFailRun x
  s.resetMachine x .watch

/-- The subscription returns to CAMPED on its serving cell, its call over; under a held disable it goes OFF (R62, R75). Its
machine returns to IDLE, a TARGET user with it (R111). -/
def State.backToCamped (s : State) (x : Sub) : State :=
  if (s.sbc.get x).disableHeld then s.goOff x
  else
    let s := ((s.removeRole .target x).dropTarget x).resetMachine x .idle
    let s := (s.subUpd x fun r => { r with state := .camped, missed := 0 }).clearFailRun x
    let s := s.nameWindow x (s.knownFrame x)
    if s.headPaused x then s.textsBack x false else s

/-- A call context ends, and its subscription with it if it was radio-holding (R147). -/
def State.endCall (s : State) (k : Fin 4) (cause : CallCause) (byte : BitVec 8) : State :=
  let x := (s.call k).part.owner
  if s.holding k then (s.closeCall k cause byte).backToCamped x else s.closeCall k cause byte

/-- A call dropped with its subscription's service (R125, R128): the drop count rises, and the subscription searches. -/
def State.dropCall (s : State) (x : Sub) (cause : CallCause) (service : ServiceCause) : State :=
  let s := match s.callOf x with
    | some k => s.closeCall k cause 0
    | none => s
  let s := s.subUpd x fun r => { r with drops := satInc max16 r.drops }
  s.searchOrOff x service

/-! ### Reselection commit (R107, R108) -/

/-- A VERIFY seek found unbarred commits the reselection: one change of the serving cell (R107, R108). The record for the key
becomes SERVING, which with two host records of one key need not be the one in hand (notes/assumptions/84.md). -/
def State.reselect (s : State) (x : Sub) (c : Fin 3) (k : Key) (f : Frame) (area : BitVec 12) : State :=
  match s.recordFor x k with
  | none => s.dropReselection x
  | some r =>
    let old := (s.sub x).servingCode
    let s := s.modMbu x fun m => { m with inHand := none }
    let oldCtx := s.servingCtx x
    let s := s.removeRole .serving x
    let s := s.withdraw x fun o => some o.ctx == oldCtx && isBeacon o.kind && !o.started
    let s := s.becomeServing c .verify x
    let s := ((s.dropServing x).setRole x r .serving).zeroDwell x
    let s := s.areaTest x area
    let s := s.subUpd x fun t =>
      { t with serving := some r, servingCode := k.code, servingArea := area, missed := 0,
               reselections := satInc max16 t.reselections }
    let s := s.addHistory x old k.code .reselect
    let s := (s.endListen x).nameWindowIn x c f
    let head := s.head x
    let s := s.abandon x
    let s := if s.head x = head then s.textsBack x true else s
    let s := (s.dropCollecting x).dropReceipts x
    (s.raise .subs).raise .cells

end Sys2Proof.Machine
end

