-- ==== Sys2Proof/Machine/Handover.lean ====
section
/-! DEFINITION. The handover machine (chapter 7): reports, the order, its execution, commit, reversion, and the ways a
handover ends. -/

namespace Sys2Proof.Machine

/-! ### Reporting (R112 to R115) -/

/-- The subscription's call is ACTIVE and holds an up slot in force (R112). -/
def State.mayReport (s : State) (x : Sub) : Bool :=
  match s.callOf x with
  | some k => (s.call k).part.state == .active && (s.call k).part.up != 0
  | none => false

/-- The frame that the serving context's next planning event offers (R113). -/
def State.nextFrame (s : State) (x : Sub) : Frame :=
  match s.servingCtx x with
  | none => 0
  | some c =>
    match (s.ctx c).nextContinuous s.now with
    | some (f, _) => f
    | none => plusFrames (s.ctx c).lastFrame 1

/-- The REPORT of a trigger (R113). -/
def Trigger.report (t : Trigger) : Uplink := .report t.key.code t.difference t.level

/-- A trigger starts a report (R112). -/
def State.startReport (s : State) (x : Sub) (t : Trigger) : State :=
  let f := s.nextFrame x
  (s.giveTarget x t.index).modMachine x fun m =>
    { m with state := .reported, candidate := some (t.key, t.index), sends := 1, heard := false,
             expiry := some (plusFrames f reportFrames), claims := m.claims ++ [(f, t.report)] }

/-- The machine takes an evaluation of a CONNECTED subscription (R103, R112, R114). -/
def State.takeEvaluation (s : State) (x : Sub) (t : Option Trigger) : State :=
  let st := (s.machine x).state
  if st = .watch ∨ st = .reported then
    let s := s.modMachine x fun m => { m with latest := t }
    match t with
    | some t => if st = .watch ∧ s.mayReport x = true then s.startReport x t else s
    | none => s
  else s

/-- REPORT HEARD in frame `g` (R114). -/
def State.reportHeard (s : State) (x : Sub) (g : Frame) : State :=
  if (s.machine x).state = .reported then
    s.modMachine x fun m => { m with heard := true, expiry := some (plusFrames g heardFrames) }
  else s

/-- The machine gives up its report (R115, R96): the candidate's own record returns from TARGET to NEIGHBOUR, whatever other
record holds its key, with dwell 0 and quiet. One that a fold has made SERVING keeps that role (notes/assumptions/85.md). -/
def State.giveUp (s : State) (x : Sub) : State :=
  let s := match (s.machine x).candidate with
    | some (_, r) => s.cellUpd x r fun c =>
        { c with role := if c.role = CellRole.target then .neighbour else c.role, dwell := 0, quietUntil := s.now + quietReported }
    | none => s
  s.resetMachine x .watch

/-- The latest evaluation triggered on the candidate's key (R115). -/
def HoMachine.stillTriggers (m : HoMachine) : Bool :=
  match m.latest, m.candidate with
  | some t, some (k, _) => t.key == k
  | _, _ => false

/-- The report timer expires at the planning event that offers frame `f` (R115): a repeat, which claims the up slot of that
frame, or the machine gives up. -/
def State.reportTimer (s : State) (x : Sub) (f : Frame) : State :=
  let m := s.machine x
  if m.heard = false ∧ m.sends < reportSends ∧ m.stillTriggers = true ∧ s.mayReport x = true then
    match m.latest with
    | some t =>
      s.modMachine x fun m =>
        { m with sends := m.sends + 1, expiry := some (plusFrames f reportFrames), claims := m.claims ++ [(f, t.report)] }
    | none => s
  else s.giveUp x

/-- The event that offers frame `f` offers the machine's expiry frame, or the first frame ahead of it (R114). -/
def HoMachine.expiresAt (m : HoMachine) (f : Frame) : Bool :=
  m.state == .reported && (match m.expiry with | some e => atOrAhead f e | none => false)

/-- The report timer at a planning event that offers its expiry frame: it is acted on there unless REPORT_TIMER_EXPIRY has
come before, so that a repeat takes the up slot of the frame offered (R114, R115; notes/assumptions/58.md). -/
def State.offerReportTimer (s : State) (x : Sub) (f : Frame) : State :=
  if (s.machine x).expiresAt f then s.reportTimer x f else s

/-! ### The order and LEAVE (R116 to R118) -/

/-- A HANDOVER ORDER heard in frame `f` on the subscription's serving context is taken, or discarded (R116, R117). -/
def State.takeOrder (s : State) (x : Sub) (c : Fin 3) (f : Frame) (o : Order) : State :=
  let m := (s.machine x).state
  match s.callOf x with
  | none => s
  | some k =>
    if (m = .watch ∨ m = .reported) ∧ (s.call k).part.state = .active ∧ o.key ≠ (s.ctx c).key then
      let s : State := match s.recordFor x o.key with
        | some r => if (s.cell x r).role = CellRole.target then s else s.dropTarget x
        | none => s.dropTarget x
      let s := s.targetRecord x o.key
      let s := s.modMachine x fun _ =>
        { HoMachine.reset with state := .leave, order := some o, oldCtx := some c, orderFrame := some f }
      let s := s.callUpd k fun r => { r with state := .moving }
      let s := s.subUpd x fun r => { r with state := .moving }
      (s.pauseHead x).raise .cells
    else s

/-- The uplink entry of a voice frame made SUSPENDED whatever it holds, unless it is so already (R118, R149). -/
def State.upSuspend (s : State) (k : Fin 4) (f : Frame) : State :=
  if ((s.call k).part.status[cellIndex f]).outcome = .suspended then s else s.upFinal k f .suspended

/-- The voice frames after the order frame `f` that were offered before LEAVE, made SUSPENDED in both directions (R118, R149,
R150; notes/assumptions/11.md): their uplink entries are written again, their downlink cells are still to be written. A frame
offered before the order to a call that then had no slots in force is no voice frame, and is left unmarked (R148;
notes/assumptions/101.md). -/
def State.suspendVoice (s : State) (k : Fin 4) (f : Frame) : State :=
  let s := ((s.call k).pends.filter fun p => ahead p.frame f).foldl (fun s p => s.upSuspend k p.frame) s
  s.modCall k fun c =>
    { c with pends := c.pends.map fun p => if ahead p.frame f then { p with outcome := some (.suspended, []) } else p }

/-! ### Failure and reversion (R123 to R125) -/

/-- The second failure: the call is dropped (R125). -/
def State.secondFailure (s : State) (x : Sub) : State := s.dropCall x .handoverLost .handoverLost

/-- The link failure of a CONNECTED or MOVING subscription (R128). -/
def State.linkFailure (s : State) (x : Sub) : State := s.dropCall x .linkLost .linkLost

/-- The serving beacon listens of a reverting subscription (R123). -/
def State.reversionListen (s : State) (x : Sub) (c : Fin 3) (f : Frame) : State :=
  s.request (beaconOcc s x c .beacon 1 .reversion f)

/-- A failed handover (R123): REVERTING, or the second failure at or after the reversion deadline. -/
def State.failHandover (s : State) (x : Sub) : State :=
  let m := s.machine x
  if m.leaveTime + reversionTime ≤ s.now then s.secondFailure x
  else
    let target := s.ctxOf .target x
    let s := s.removeRole .target x
    let s := s.withdraw x fun o => some o.ctx == target && !o.started
    let s := (s.dropTarget x).modMachine x fun m =>
      { m with state := .reverting, lock := none, arrivals := 0, area := none }
    match m.oldCtx with
    | some c =>
      match (s.ctx c).lastPlanned with
      | some f => s.reversionListen x c f
      | none => s
    | none => s

/-- LEAVE: the old slots are let go at the end of the order frame, and the target is asked for (R118, R119). A MEASURE of a
later frame that is still GRANTED is let go with them, as R118 has it, though R90 lets granted MEASUREs run to their ends
while MOVING (notes/assumptions/59.md). A request that is DEFERRED is cancelled, and the handover fails at once (R119). -/
def State.leaveOld (s : State) (x : Sub) (k : Fin 4) (c : Fin 3) (f : Frame) (o : Order) : State :=
  let s := s.modMachine x fun m => { m with leaveTime := s.now, state := .acquire }
  let s := s.suspendVoice k f
  let s := (s.abandon x).withdraw x fun p => p.ctx == c && (!p.started || isBeacon p.kind)
  let s := (s.cancelDeferred .target x).allocate .target x o.key
  if s.tmu.deferred.any fun d => d.role == .target && d.sub == x then (s.cancelDeferred .target x).failHandover x else s

/-- The call goes on with voice: MOVING becomes ACTIVE, RELEASING stays (R121, R124). -/
def resumed (st : CallState) : CallState := if st = .moving then .active else st

/-- A reversion succeeds (R124). In a call that holds no up slot the claim, and a RELEASE REQUEST that waits, wait until slots
are in force (R127; notes/assumptions/60.md). -/
def State.revertHandover (s : State) (x : Sub) : State :=
  match s.callOf x with
  | none => s
  | some k =>
    let f := s.nextFrame x
    let s := s.modMachine x fun _ =>
      { HoMachine.reset with state := .watch, claims := [(f, .revertNotice (s.call k).part.ref)] }
    let s := (s.releaseOnSlot x k).callUpd k fun r => { r with state := resumed r.state }
    let s := s.subUpd x fun r => { r with state := .connected, reverts := satInc max16 r.reverts }
    s.textsBack x false

/-! ### Commit (R121, R122) -/

/-- The serving record becomes the record for a key, with every dwell count 0 (R121). -/
def State.serveKey (s : State) (x : Sub) (k : Key) : State :=
  let s := s.dropServing x
  let s := match s.recordFor x k with
    | some r => (s.setRole x r .serving).subUpd x fun t => { t with serving := some r, servingCode := k.code }
    | none => s.subUpd x fun t => { t with servingCode := k.code }
  s.zeroDwell x

/-- WELCOME commits the handover in the target context `c` (R121, R122). The downlink cells of the old cell that are due are
written (notes/assumptions/34.md); a frame base still to be written is dropped, one that is due included
(notes/assumptions/102.md). -/
def State.commitHandover (s : State) (x : Sub) (c : Fin 3) (k : Fin 4) (o : Order) : State :=
  let area := (s.machine x).area
  let old := (s.sub x).servingCode
  let s := s.stage c { call := k, sub := x, down := o.down, up := o.up, frame := plusFrames (s.ctx c).lastFrame 1 }
  let s := s.withdraw x fun p => p.ctx == c && !p.started && (p.kind == .txArrival || p.kind == .rxControl)
  let s := (s.flush k s.downReady).modCall k fun t => { t with bases := [], pends := [] }
  let s := (s.removeRole .serving x).becomeServing c .target x
  let s := s.serveKey x o.key
  let s := match area with
    | some a => s.areaTest x a
    | none => s
  let s := s.subUpd x fun r => { r with handovers := satInc max16 r.handovers, state := .connected }
  let s := s.addHistory x old o.key.code .handover
  let s := (s.modCall k Call.releaseMayStart).callUpd k fun r =>
    { r with epoch := r.epoch + 1, state := resumed r.state }
  let s := s.resetMachine x .watch
  let s := ((s.textsBack x true).dropCollecting x).dropReceipts x
  s.raise .cells

/-! ### A RELEASE from the cell during a handover (R126) -/

/-- The subscription camps on what is left: the old cell, or the target cell (R126). -/
def State.settleCamped (s : State) (x : Sub) (changed : Bool) : State :=
  let s := (s.dropTarget x).resetMachine x .idle
  let s := (s.subUpd x fun r => { r with state := .camped, missed := 0 }).clearFailRun x
  let s := s.nameWindow x (s.knownFrame x)
  let s := s.textsBack x changed
  if changed then (s.dropCollecting x).dropReceipts x else s

/-- The call ends and the handover stops (R126). -/
def State.stopHandover (s : State) (x : Sub) (k : Fin 4) (cause : CallCause) (byte : BitVec 8) : State :=
  let m := s.machine x
  let target := s.ctxOf .target x
  let s := s.closeCall k cause byte
  let s := s.withdraw x fun o => some o.ctx == target && !o.started
  let follows := fun c : Option (Fin 3) => match c with | some c => (s.ctx c).follows | none => false
  if (s.sbc.get x).disableHeld then s.goOff x
  else if follows (s.servingCtx x) then (s.removeRole .target x).settleCamped x false
  else
    match target, m.order with
    | some c, some o =>
      if follows target then
        let s := (s.removeRole .serving x).becomeServing c .target x
        let s := s.serveKey x o.key
        let s := match m.area with
          | some a => s.areaTest x a
          | none => s
        s.settleCamped x true
      else s.enterSearching x .handoverLost
    | _, _ => s.enterSearching x .handoverLost

/-! ### What a found target brings (R119) -/

/-- The target seek ends FOUND on the beacon of frame `f` (R119). -/
def State.targetFound (s : State) (x : Sub) (k : Key) (f : Frame) (barred : Bool) (area : BitVec 12) : State :=
  let s := if barred then s.barMark x k else s
  if (s.machine x).state = .acquire then
    s.modMachine x fun m => { m with state := .arrive, lock := some f, arrivals := 0, area := some area }
  else s

end Sys2Proof.Machine
end

