-- ==== Sys2Proof/Machine/Offers.lean ====
section
/-! DEFINITION. Planning events (chapters 2 to 9): what each block requests of the frame offered, in the order of
notes/assumptions/7.md, and the batch of measurements after a served window. -/

namespace Sys2Proof.Machine

/-! ### Beacons (R36, R68, R69, R120, R123) -/

/-- The paging window of the frame offered, if it is one, and the next window named (R68). -/
def State.offerWindow (s : State) (x : Sub) (c : Fin 3) (f : Frame) : State :=
  match (s.sbc.get x).window with
  | none => s
  | some w =>
    if f = w then (s.request (beaconOcc s x c .paging 3 .window f)).nameWindow x f
    else if ahead f w then s.nameWindow x f
    else s

/-- The serving beacon of the frame offered, as the subscription's state asks for it. -/
def State.offerBeacon (s : State) (x : Sub) (c : Fin 3) (f : Frame) : State :=
  match (s.sub x).state with
  | .connected => s.request (beaconOcc s x c .beacon 2 .serving f)
  | .moving => if (s.machine x).state = .reverting then s.reversionListen x c f else s
  | .camped =>
    if (s.sbc.get x).window = some f then s.offerWindow x c f
    else
      let s := s.offerWindow x c f
      if s.wantsBeacon x f then s.request (beaconOcc s x c .beacon 5 .text f) else s
  | _ => s

/-! ### Calls (R141, R148 to R150) -/

/-- The machine is EXECUTING (R111). -/
def executing (m : MachineState) : Bool :=
  match m with
  | .leave | .acquire | .arrive => true
  | _ => false

/-- The call's access or release timer has run out at the frame offered: the call requests nothing there, and its ending is left
to the timer's row (R142, R143; notes/assumptions/100.md). -/
def Call.timedOut (c : Call) (f : Frame) : Bool :=
  let past := fun (o : Option Frame) (n : Nat) => match o with
    | some g => atOrAhead f (plusFrames g n)
    | none => false
  (match c.access with | some a => past a.first accessFrames | none => false)
    || (match c.release with | some r => past r.first releaseFrames | none => false)

/-- The call has slots in force. -/
def CallRec.hasSlots (r : CallRec) : Bool := r.down != 0 && r.up != 0

/-- The call listens for control blocks in every down slot (R141). -/
def Call.listensAll (c : Call) : Bool :=
  match c.part.state with
  | .dialling | .answering => true
  | .active | .releasing => !c.part.hasSlots
  | _ => false

/-- The call carries voice on its slots (R141, R148). -/
def Call.carriesVoice (c : Call) : Bool :=
  (c.part.state == .active || c.part.state == .releasing) && c.part.hasSlots

/-- A suspended voice frame: the call's handover is in execution or reverting, and the frame is after the order frame
(R118, R148). -/
def State.suspendedFrame (s : State) (x : Sub) (f : Frame) : Bool :=
  let m := s.machine x
  handingOver m.state && (match m.orderFrame with | some g => ahead f g | none => false)

/-- A suspended voice frame's entries (R149, R150). -/
def State.offerSuspended (s : State) (x : Sub) (c : Fin 3) (f : Frame) : State :=
  match s.callOf x with
  | some k =>
    if s.suspendedFrame x f then (s.upWrite k f .suspended).expectDown k c f (some .suspended) else s
  | none => s

/-- The call's down slot in the frame offered (R141, R150). -/
def State.offerDown (s : State) (x : Sub) (c : Fin 3) (f : Frame) (k : Fin 4) : State :=
  let o := { slotOcc s x c .rxVoice 2 .call f (s.call k).part.down .block with call := some k }
  match s.ask o with
  | (s, .granted _) => s.expectDown k c f none
  | (s, .denied r) => s.expectDown k c f (some (downEnding (.denied r)))

/-- The frame of send n of a release has been requested: the next one's frame, and the release timer's start (R143). -/
def Release.sent (r : Release) (f : Frame) : Release :=
  let n := r.sends + 1
  { sends := n, next := if n < releaseMax then .atFrame (plusFrames f (1 + n)) else .none,
    first := some (r.first.getD f) }

/-- A release send is due in the frame offered. -/
def Call.releaseDue (c : Call) (f : Frame) : Bool :=
  match c.release with
  | some r => decide (r.sends < releaseMax) && r.next.dueAt f
  | none => false

/-- The claims on the up slot that are due in the frame offered, and the rest (R113). -/
def takeClaim (f : Frame) : List (Frame × Uplink) → Option Uplink × List (Frame × Uplink)
  | [] => (none, [])
  | (g, b) :: l =>
    if atOrAhead f g then (some b, l)
    else let r := takeClaim f l
         (r.1, (g, b) :: r.2)

/-- The voice of an uplink cell as taken: a VOICE block where its tag and length are right, SILENCE otherwise (R149). -/
def State.takeCell (s : State) (k : Fin 4) (f : Frame) : Uplink :=
  let i := (cellIndex f).val
  let n := s.upLength k i
  if s.upTag k i = f ∧ 1 ≤ n ∧ n ≤ 40 then .voice (s.upPayload k i) else .silence

/-- The up slot requested for a block, and the frame's entry written (R149). -/
def State.askUp (s : State) (x : Sub) (c : Fin 3) (f : Frame) (k : Fin 4) (kind : Kind) (b : Uplink) : State :=
  let o := { slotOcc s x c kind 2 .call f (s.call k).part.up (.send (s.set x).tag b) with call := some k }
  match s.ask o with
  | (s, .granted _) => s.upWrite k f .taken
  | (s, .denied r) => s.upWrite k f (upEnding o.upRequest (.denied r))

/-- The call's up slot in the frame offered: a claimed block, a RELEASE REQUEST that is due, or the frame's voice (R113, R143,
R149). -/
def State.offerUp (s : State) (x : Sub) (c : Fin 3) (f : Frame) (k : Fin 4) : State :=
  match takeClaim f (s.machine x).claims with
  | (some b, l) => (s.modMachine x fun m => { m with claims := l }).askUp x c f k .txStolen b
  | (none, _) =>
    if (s.call k).releaseDue f then
      let b := Uplink.releaseRequest (s.call k).part.ref
      (s.modCall k fun t => { t with release := t.release.map fun r => r.sent f }).askUp x c f k .txStolen b
    else s.askUp x c f k .txVoice (s.takeCell k f)

/-- What the call requests in one slot of the frame offered (R141). -/
def State.offerCallSlot (s : State) (x : Sub) (c : Fin 3) (f : Frame) (i : Nat) : State :=
  match s.callOf x with
  | none => s
  | some k =>
    let t := s.call k
    if handingOver (s.machine x).state || t.timedOut f then s
    else if t.listensAll then
      if i ≤ 3 then s.request { slotOcc s x c .rxControl 2 .call f i .block with call := some k } else s
    else if t.carriesVoice then
      if i = t.part.down then s.offerDown x c f k
      else if i = t.part.up then s.offerUp x c f k
      else s
    else s

/-! ### Listen periods (R71, R72) -/

/-- The listen period's control listen in a down slot (R71); none at the event that ends the period (R72), nor after
it while LISTEN_PERIOD_END is still to come (notes/assumptions/100.md). -/
def State.offerListen (s : State) (x : Sub) (c : Fin 3) (f : Frame) (i : Nat) : State :=
  match (s.sub x).listenEnd with
  | some e =>
    if i ≤ 3 ∧ (s.sub x).state = .camped ∧ ahead f e = false then
      s.request (slotOcc s x c .rxControl 4 .listen f i .block)
    else s
  | none => s

/-! ### Measurements (R90, R91) -/

/-- The measuring slots of a connected subscription's frame (R90). -/
def State.measuringSlots (s : State) (x : Sub) : List Nat :=
  match s.callOf x with
  | some k => ([2, 3, 4, 5, 6].filter fun i => i != (s.call k).part.down && i != (s.call k).part.up).take 4
  | none => []

/-- The records that have been granted a MEASURE in frame `f`, whatever has become of it: probes, and MEASUREs of an earlier
batch that have ended or been revoked, included (R89, R90, R92). A record that has taken another key since is another cell's. -/
def State.measuredIn (s : State) (x : Sub) (c : Fin 3) (f : Frame) : List (Fin 18) :=
  ((s.ctx c).measured.filter fun m => m.sub == x && m.frame == f && (s.cell x m.record).key == m.key).map Measured.record

/-- A MEASURE of record `r` has been granted in frame `f` (R89). -/
def State.noteMeasure (s : State) (x : Sub) (c : Fin 3) (f : Frame) (r : Fin 18) : State :=
  s.modCtx c fun t => t.noteMeasure x f r (s.cell x r).key

/-- One measuring slot: the pending probe takes the first, any other the next neighbour that is not yet granted a MEASURE in
the batch or in the frame (R89, R90, R91, R93). The answer carries the records granted so far, the probed one among them; a
probe's grant leaves the pointer (notes/assumptions/57.md). -/
def State.measureSlot (s : State) (x : Sub) (c : Fin 3) (f : Frame) (i : Nat) (first : Bool)
    (granted : List (Fin 18)) : State × List (Fin 18) :=
  match (if first then s.nextProbe x else none) with
  | some r =>
    match s.ask (measureOcc s x c f i (s.cell x r).key (some r)) with
    | (s, .granted _) => (s.noteMeasure x c f r, r :: granted)
    | (s, .denied _) => (s, granted)
  | none =>
    match s.nextNeighbour x (granted ++ s.measuredIn x c f) with
    | none => (s, granted)
    | some r =>
      match s.ask (measureOcc s x c f i (s.cell x r).key none) with
      | (s, .granted _) => ((s.setPointer x r).noteMeasure x c f r, r :: granted)
      | (s, .denied _) => (s, granted)

/-- The frame and slot of place `j` of a batch after window `f`: slots 2 to 7 of the window frame, then 0 to 7 of the
frames after it (R91). -/
def batchPlace (f : Frame) (j : Nat) : Frame × Nat := (plusFrames f ((j + 2) / 8), (j + 2) % 8)

/-- The batch of measurements after a served window (R91): the speed class is read at the window (R105). -/
def State.batch (s : State) (x : Sub) (c : Fin 3) (f : Frame) : State :=
  let s := s.subSet x fun r => { r with speed := speedAt r.history s.now }
  let n := s.batchSize x
  let probe := (s.nextProbe x).isSome
  ((List.range (n + if probe then 1 else 0)).foldl (fun (a : State × List (Fin 18)) j =>
    let p := batchPlace f j
    a.1.measureSlot x c p.1 p.2 (probe && j == 0) a.2) (s, [])).1

/-! ### The target cell in ARRIVE (R120) -/

/-- The frame offered is one of the `n` frames after the lock frame. -/
def afterLock (lock f : Frame) (n : Nat) : Bool := decide (1 ≤ (f - lock).toNat) && decide ((f - lock).toNat ≤ n)

/-- The arrivals counted at the event that offers target frame `f`: one for each frame from N + 1 to N + 4 that has begun by
then, whatever was requested in it. The event is raised at the start of the frame before `f`, so the first counts none and
the one that offers N + 2 counts 1, as the worked example of chapter 7 has it (R120). -/
def arrivalsAt (lock f : Frame) : Nat := min arrivalMax ((f - lock).toNat - 1)

/-- What the handover requests in the target frame offered (R120): the target beacon, the target down slot, and ARRIVAL while
fewer than 4 arrivals have been counted. The planner settles their conflicts by R40 and R43, so a down slot 1 loses to the
beacon, against the worked example of chapter 7 (notes/assumptions/88.md). -/
def State.offerTarget (s : State) (x : Sub) (c : Fin 3) (f : Frame) : State :=
  let m := s.machine x
  match m.lock, m.order, s.callOf x with
  | some n, some o, some k =>
    if m.state = .arrive ∧ afterLock n f arriveListen = true then
      let s := s.modMachine x fun m => { m with arrivals := arrivalsAt n f }
      let s := s.request (beaconOcc s x c .beacon 2 .target f)
      let s := s.request { slotOcc s x c .rxControl 2 .target f o.down .block with call := some k }
      if arrivalsAt n f < arrivalMax then
        let a := slotOcc s x c .txArrival 1 .send f o.up (.send (s.set x).tag (.arrival (s.call k).part.ref))
        s.request { a.shift o.offset with call := some k }
      else s
    else s
  | _, _, _ => s

/-! ### The open section (R14) -/

/-- An access attempt is due in the frame offered (R142). -/
def Call.accessDue (c : Call) (f : Frame) : Bool :=
  match c.access with
  | some a => decide (a.attempts < accessMax) && a.next.dueAt f
  | none => false

/-- The block of an access attempt (R142). -/
def Call.accessBlock (c : Call) : Uplink :=
  match c.access with
  | some a => if a.dial then .accessDial c.part.ref c.dial else .accessAnswer c.part.ref
  | none => .accessAnswer c.part.ref

/-- Attempt n has been requested: the next one's frame, and the access timer's start (R16, R142). The next attempt is planned
whatever has become of this one by its event, one still STARTED included (notes/assumptions/67.md). -/
def Access.tried (a : Access) (f : Frame) : Access :=
  let n := a.attempts + 1
  { a with attempts := n, next := if n < accessMax then .atFrame (plusFrames f (1 + n)) else .none,
           first := some (a.first.getD f) }

/-- The call's block in the open section: an access attempt, or a RELEASE REQUEST of a call without slots (R141 to R143). -/
def State.offerCallOpen (s : State) (x : Sub) (c : Fin 3) (f : Frame) : State :=
  match s.callOf x with
  | none => s
  | some k =>
    let t := s.call k
    if handingOver (s.machine x).state || t.timedOut f || t.carriesVoice then s
    else if t.accessDue f then
      let o := { openOcc s x c .call f t.accessBlock with call := some k }
      (s.modCall k fun t => { t with access := t.access.map fun a => a.tried f }).request o
    else if t.releaseDue f then
      let o := { openOcc s x c .call f (.releaseRequest t.part.ref) with call := some k }
      (s.modCall k fun t => { t with release := t.release.map fun r => r.sent f }).request o
    else s

/-- The ACCESS (DECLINE) kept for the subscription (R139). -/
def State.offerDecline (s : State) (x : Sub) (c : Fin 3) (f : Frame) : State :=
  match s.clu.decline.get x with
  | some r => (s.setDecline x none).request (openOcc s x c .send f (.accessDecline r))
  | none => s

/-- The receipts that wait for an event, in the order their segments were taken (R14, R164). -/
def State.offerReceipts (s : State) (x : Sub) (c : Fin 3) (f : Frame) : State :=
  let mine := s.txu.receipts.filter fun r => r.sub == x
  mine.foldl (fun s r => s.request (openOcc s x c .send f (.segmentReceipt r.ref r.index r.waiter))) (s.dropReceipts x)

/-- The head's segment is due in the frame offered (R155). -/
def State.segmentDue (s : State) (x : Sub) (i : Fin 8) (f : Frame) : Bool :=
  (s.slot i).state == .sending && (s.side x).flight.isNone
    && (match (s.side x).plan with
        | .nextEvent => true
        | .atFrame g => atOrAhead f g
        | _ => false)

/-- The head's segment requested (R155, R156): the attempt is counted at the request. -/
def State.offerSegment (s : State) (x : Sub) (c : Fin 3) (f : Frame) : State :=
  match s.head x with
  | none => s
  | some i =>
    if s.segmentDue x i f then
      let s := s.slotUpd i false fun o => { o with attempts := o.attempts + 1 }
      match s.ask (openOcc s x c .send f (s.slot i).block) with
      | (s, .granted h) => s.modSide x fun d => { d with flight := some { handle := h, frame := f, sent := false }, plan := .none }
      | (s, .denied _) => s.attemptFailed x f
    else s

/-! ### A planning event (R31, R32, R34) -/

/-- The acknowledgement window of the segment in flight closes at the event that offers frame `f` (R156). -/
def State.windowClosesAt (s : State) (x : Sub) (f : Frame) : Option Frame :=
  match (s.side x).flight with
  | some g => if g.sent && atOrAhead f (plusFrames g.frame ackClose) then some g.frame else none
  | none => none

/-- The acknowledgement window at a planning event that offers its closing frame: it closes there unless ACK_WINDOW_CLOSE has
come before, so that a retry, or the slot that becomes head where the closed one had a withdraw pending, may be sent in the frame
offered (R16, R155, R156, R158; notes/assumptions/68.md). -/
def State.offerAckWindow (s : State) (x : Sub) (f : Frame) : State :=
  match s.windowClosesAt x f with
  | some g => s.closeWindow x g
  | none => s

/-- What a subscription requests of its serving context's frame: slot 0, slots 1 to 6, then the open section. While its
handover is EXECUTING it requests nothing (R118); a decline and the receipts that wait then wait on, for the first event
outside EXECUTING (notes/assumptions/17.md and 18.md). -/
def State.offerServing (s : State) (x : Sub) (c : Fin 3) (f : Frame) : State :=
  let s := ((s.offerReportTimer x f).offerAckWindow x f).offerSuspended x c f
  if executing (s.machine x).state then s
  else
    let s := s.offerBeacon x c f
    let slots := if (s.sub x).state = .connected then s.measuringSlots x else []
    let a := [1, 2, 3, 4, 5, 6].foldl (fun (a : State × List (Fin 18)) i =>
      let s := (a.1.offerListen x c f i).offerCallSlot x c f i
      if slots.contains i then s.measureSlot x c f i (slots.head? == some i) a.2 else (s, a.2)) (s, [])
    ((((a.1.offerCallOpen x c f).offerDecline x c f).offerReceipts x c f).offerSegment x c f)

/-- What the blocks of one subscription request of the frame offered. -/
def State.offerSub (s : State) (x : Sub) (c : Fin 3) (f : Frame) : State :=
  let s := if (s.ctx c).hasUser .serving x then s.offerServing x c f else s
  if (s.ctx c).hasUser .target x then s.offerTarget x c f else s

/-- The seek users of a context whose deadline a listen that ends at `stop` does not pass (R28, R29). -/
def Ctx.seekers (c : Ctx) (stop : Int) : List User :=
  c.users.filter fun u => match u.deadline with
    | some d => isSeek u.role && decide (stop ≤ (d : Int))
    | none => false

/-- A SEEK listen requested for the seekers: the highest class among them, every one a requester (R28, R29). -/
def State.requestSeek (s : State) (o : Occ) (use : Use) (us : List User) : State :=
  match us with
  | [] => s
  | _ =>
    let cls := us.foldl (fun a u => min a (seekClass u.role)) 7
    let who := us.foldl (fun (w : Pair (Option Own)) u =>
      w.set u.sub (some { kind := .seek, cls := seekClass u.role, use := use })) ⟨none, none⟩
    s.request { o with kind := .seek, cls := cls, who := who }

/-- The SEEK listen of a LOCKED or HOLDOVER context whose beacons serve a seek (R29). -/
def State.offerSeek (s : State) (c : Fin 3) (f : Frame) : State :=
  let o := beaconOcc s .a c .seek 7 .seekBeacon f
  s.requestSeek o .seekBeacon ((s.ctx c).seekers o.stop)

/-- The context after an event that offers frame `f`: the frame planned, an inhibit hold past its wait, and the marks of MEASUREs
of the frames behind it let go (R31, R54, R89). -/
def Ctx.planned (c : Ctx) (f : Frame) : Ctx :=
  { c with lastPlanned := some f, first := none, measured := c.measured.filter fun m => atOrAhead m.frame f,
           hold := match c.hold with
             | some h => if ahead f h.release then none else some { h with waiting := false }
             | none => none }

/-- The staged slots handed over at the event that offers their effective frame, or the first one ahead of it (R34). -/
def State.handStaged (s : State) (c : Fin 3) (f : Frame) : State :=
  match (s.ctx c).staged with
  | some g =>
    if atOrAhead f g.frame then (s.modCtx c fun t => { t with staged := none }).handSlots g else s
  | none => s

/-- The deferred requests that the context's event retries (R22). -/
def State.retryAt (s : State) (c : Fin 3) : State :=
  s.retry fun d => (s.ctx c).hasSub d.sub || !(allCtx.any fun i => (s.ctx i).hasSub d.sub)

/-- A planning event of context `c` that offers frame `f` (R31, R32). A context that a retried request has taken offers
nothing (R21). -/
def State.offer (s : State) (c : Fin 3) (f : Frame) : State :=
  let alloc := (s.ctx c).alloc
  let s := (s.modCtx c fun t => t.planned f).retryAt c
  if (s.ctx c).alloc = alloc then
    (((s.handStaged c f).offerSeek c f).offerSub .a c f).offerSub .b c f
  else s

/-! ### Seek planning events (R28) -/

/-- The start of listen `j` of the seek grid (R28). -/
def Ctx.listenStart (c : Ctx) (j : Nat) : Nat := c.seekEntry + seekLead + seekLen * j

/-- The time of the seek planning event for listen `j` (R28). -/
def Ctx.seekEventTime (c : Ctx) (j : Nat) : Nat := if j = 0 then c.seekEntry else c.listenStart (j - 1)

/-- A seek planning event: the next listen of the grid is requested for the users whose deadlines allow it (R28). A user that
joins by a deferred request retried at this very event has no part in it (notes/assumptions/69.md). -/
def State.seekEvent (s : State) (c : Fin 3) : State :=
  let t := s.ctx c
  let b : Int := t.listenStart t.listen
  let o := newOcc s .a c .seek 7 .seek 0 0 b (b + seekLen) .beacon
  let s := (s.modCtx c fun t => { t with listen := t.listen + 1 }).retryAt c
  s.requestSeek o .seek (t.seekers o.stop)

end Sys2Proof.Machine
end

