-- ==== Sys2Proof/Machine/Sleep.lean ====
section
/-! DEFINITION. The power controller (chapter 10): plan times, the sleep decision, entry to SLEEP and WAKING, the drift
estimator; and what every block command ends with. -/

namespace Sys2Proof.Machine

/-! ### Plan times (R170) -/

/-- The earliest of the times handed to the power controller. -/
def earliest (l : List Int) : Option Int :=
  l.foldl (fun a t => match a with | none => some t | some b => some (min b t)) none

/-- The planner's time: the earliest start in the plan list less the issue advance. -/
def State.planTimes (s : State) : List Int := s.rpl.plan.map fun o => o.start - issueAdvance

/-- The time of a WINDOWED context's next planning event: one still to be raised at once after a seek was due when the seek
ended (R31, R32). -/
def State.eventTime (s : State) (c : Ctx) : Option Int :=
  if c.follows && !c.continuous && c.first.isSome then some c.anchorTime
  else (s.nextWindowed c).map fun p => p.2

/-- The timing unit's times: the next planning event of each WINDOWED context. -/
def State.eventTimes (s : State) : List Int := allCtx.filterMap fun c => s.eventTime (s.ctx c)

/-- The subscription controller's times: the retry time of each LOST subscription. -/
def State.retryTimes (s : State) : List Int :=
  allSubs.filterMap fun x => (s.sbc.get x).lostRetry.map fun t => (t : Int)

/-- The call unit's times: the expiry of each RINGING context. -/
def State.ringTimes (s : State) : List Int :=
  allCalls.filterMap fun k => (s.call k).ring.map fun t => (t : Int)

/-- The text unit's times: the pause expiry of each PAUSED head, and the timeout of each COMPLETE-WAITING or
DELIVERED-UNACKED reassembly context. -/
def State.textTimes (s : State) : List Int :=
  (allSubs.filterMap fun x => (s.side x).pause.map fun t => (t : Int))
    ++ allReasm.filterMap fun r =>
      let c := s.txu.reasm[r]
      if c.state = .completeWaiting ∨ c.state = .deliveredUnacked then some ((c.lastTime + reasmTime : Nat) : Int) else none

/-- The next plan time (R170). -/
def State.nextPlan (s : State) : Option Int :=
  earliest (s.planTimes ++ s.eventTimes ++ s.retryTimes ++ s.ringTimes ++ s.textTimes)

/-- The gap is at least `n`, or there is no next plan time. -/
def State.gapAtLeast (s : State) (n : Nat) : Bool :=
  match s.nextPlan with
  | none => true
  | some t => decide ((s.now : Int) + n ≤ t)

/-! ### The SLEEP conditions (R171) -/

/-- A timing context has a seek user. -/
def Ctx.hasSeekUser (c : Ctx) : Bool := c.users.any fun u => isSeek u.role

/-- The six conditions, in the rule's order. -/
def State.sleepConditions (s : State) : List Bool :=
  [!s.anyHolding,
   !(allSubs.any s.headSending),
   !(allReasm.any fun r => s.txu.reasm[r].state == .collecting),
   !(allSubs.any fun x => (s.sub x).listenEnd.isSome),
   !(allCtx.any fun c => (s.ctx c).hasSeekUser),
   s.exm.scan == 0]

/-- A SLEEP condition has come to hold where it did not. -/
def newlyHolds (old new : List Bool) : Bool := (old.zip new).any fun p => !p.1 && p.2

/-! ### Limits reached (R23, R27, R63, R88, R158, R162)

Each has a row of the table that acts on it (notes/assumptions/2.md). The manual has each acted on as it is reached, so no sleep
decision comes between the two (notes/assumptions/95.md). -/

/-- The missed windows of a CAMPED subscription have reached 4 (R63, R68): WINDOWS_MISSED acts. -/
def State.windowsOut (s : State) (x : Sub) : Bool := (s.sub x).state == .camped && decide (windowLimit ≤ (s.sub x).missed)

/-- The serving record's fail run has reached a limit in the given state (R88): FAIL_RUN or LINK_FAILURE acts. -/
def State.failRunAt (s : State) (x : Sub) (st : SubState) (n : Nat) : Bool :=
  (s.sub x).state == st
    && (match s.recordIn x .serving with
        | some r => decide (n ≤ (s.cell x r).failRun)
        | none => false)

/-- A LOCKED context has missed 4 beacons (R27): HOLDOVER_ENTRY acts. -/
def State.holdoverOut (s : State) (c : Fin 3) : Bool :=
  (s.ctx c).state == .locked && decide (holdoverMisses ≤ (s.ctx c).misses)

/-- A context has missed 50 beacons, or its next frame lies too far beyond its anchor (R23, R27): LOSS acts. -/
def State.lossOut (s : State) (c : Fin 3) : Bool :=
  (s.ctx c).follows && (decide (lossMisses ≤ (s.ctx c).misses) || s.outrun c)

/-- A subscription has reached a limit: of its windows, its fail run, or the head of its send queue. -/
def State.subLimit (s : State) (x : Sub) : Bool :=
  s.windowsOut x || s.failRunAt x .camped idleFailLimit || s.failRunAt x .connected connectedFailLimit || s.headOut x

/-- A limit has been reached, and its row has not acted on it yet. -/
def State.limitReached (s : State) : Bool :=
  allSubs.any s.subLimit || allCtx.any fun c => s.holdoverOut c || s.lossOut c

/-! ### Decisions (R171, R173) -/

/-- The ticks the slow timer is programmed with for a sleep of `len` µs and drift estimate `d` (R173). -/
def sleepTicks (len : Nat) (d : Int) : Nat :=
  32768 * len * (16000000 + d).toNat / 16000000000000

/-- The time elapsed over `n` ticks at drift estimate `d` (R175). -/
def elapsedTime (n : Nat) (d : Int) : Nat :=
  divHalfUp (16000000000000 * n) (32768 * (16000000 + d).toNat)

/-- The wake target (R173). -/
def State.wakeTarget (s : State) : Nat :=
  let cap := s.now + 1000000 * s.pwc.maxSleep
  match s.nextPlan with
  | none => cap
  | some t => min (t - wakeLead).toNat cap

/-- Entry to SLEEP (R173). -/
def State.enterSleep (s : State) : State :=
  let n := sleepTicks (s.wakeTarget - s.now) s.pwc.drift
  s.powerUpd false fun p =>
    { p with state := .sleep, sleeps := satInc max16 p.sleeps, timer := 0, target := n, usedDrift := p.drift }

/-- The power state set, where it is another (R178). -/
def State.setPower (s : State) (st : Power) : State :=
  if s.pwc.state = st then s else s.powerUpd false fun p => { p with state := st }

/-- The sleep decision (R171). -/
def State.sleepDecision (s : State) : State :=
  if s.pwc.permit = .full ∧ s.sleepConditions.all id = true ∧ s.gapAtLeast sleepGap = true then s.enterSleep
  else if s.pwc.permit ≠ .none ∧ s.gapAtLeast napGap = true then s.setPower .nap
  else s.setPower .run

/-- A decision is made: an occupancy has left the plan list, the next plan time has changed, or a SLEEP condition has come
to hold (R171). `s0` is the state before the command. A decision waits while a limit is reached and not acted on, and is made
once the last such limit has been (notes/assumptions/95.md). -/
def State.decides (s0 s : State) : Bool :=
  s.working && !s.limitReached
    && (s0.limitReached || s.rpl.left || s.nextPlan != s0.nextPlan || newlyHolds s0.sleepConditions s.sleepConditions)

/-- Marks that live within one step only, cleared. -/
def State.clearMarks (s : State) : State :=
  { s with tmu := { s.tmu with freed := false }, rpl := { s.rpl with left := false } }

/-- What follows every command of the blocks: deferred requests are retried when a context has gone FREE, every context's
activity is recomputed, and the sleep decision is made where one is due (R22, R30, R171). The retry comes after whatever the
blocks have asked for in the command (notes/assumptions/62.md). Activity is recomputed once, from what stands at the end
(notes/assumptions/90.md), and a limit that the command has reached holds the sleep decision back until its row has acted
(notes/assumptions/95.md). -/
def State.finish (s0 s : State) : State :=
  let s := if s.tmu.freed then s.retry fun _ => true else s
  let s := s.refresh
  (if s0.decides s then s.sleepDecision else s).clearMarks

/-- What follows the entry to RUN or to RUNNING: as after any command, and the sleep decision of the entry itself, which a limit
that is reached holds back like any other (R171, R175, R192; notes/assumptions/95.md). -/
def State.finishEntry (s0 s : State) : State :=
  let t := s0.finish s
  if t.pwc.state = .run ∧ t.limitReached = false then t.sleepDecision else t

/-! ### Waking (R33, R174, R175) -/

/-- Entry to WAKING after `n` ticks: local time is restored, the sleep is accounted, and every LOCKED or HOLDOVER context is
marked (R33, R175). -/
def State.enterWaking (s : State) (n : Nat) : State :=
  let e := elapsedTime n s.pwc.usedDrift
  let t := clockValue (s.now + e)
  let s := { s with tmu :=
    { s.tmu with localTime := t, refCycles := 0,
                 ctx := allCtx.foldl (fun v (c : Fin 3) =>
                   if (v[c]).follows then v.set c { v[c] with wakeMark := true } else v) s.tmu.ctx } }
  s.powerUpd false fun p =>
    { p with state := .waking, totalSleep := satAdd max48 p.totalSleep e, lastSleep := e, accum := p.accum + e,
             timer := 0, sampled := false, wakeEnd := t + wakingTime }

/-! ### The drift estimator (R176, R177) -/

/-- The new drift estimate after a used sample (R177). -/
def driftAfter (d e : Int) (acc : Nat) : Int :=
  let p := clampInt (-driftMax) driftMax (d + (e * 16000000).tdiv acc)
  clampInt (-driftMax) driftMax (d + (p - d).tdiv 4)

/-- A drift sample taken (R176, R177): the accumulated sleep returns to 0 whatever becomes of it. -/
def State.driftSample (s : State) (e : Int) : State :=
  let acc := s.pwc.accum
  let s := { s with pwc := { s.pwc with accum := 0, sampled := true } }
  if acc < driftSleep then s
  else if driftDeviation < e.natAbs then s.powerUpd true fun p => { p with wideWakes := satInc max16 p.wideWakes }
  else s.powerUpd true fun p => { p with drift := driftAfter p.drift e acc }

end Sys2Proof.Machine
end

