-- ==== Sys2Proof/Machine/Reports.lean ====
section
/-! DEFINITION. What the transceiver's reports do (chapters 1, 2, 3): beacons, blocks, levels, sends, and silence. -/

namespace Sys2Proof.Machine

/-! ### The occupancy a report names (R48) -/

/-- The STARTED occupancy of a handle whose kind expects the report, while the report is in time (R48). -/
def State.heardBy (s : State) (h : Handle) (expects : Kind → Bool) : Option Occ :=
  s.rpl.plan.find? fun o => o.handle == h && o.started && expects o.kind && decide ((s.now : Int) ≤ o.stop + reportGrace)

/-- Listens of purpose BEACON (R47). -/
def hearsBeacon (k : Kind) : Bool :=
  match k with
  | .beacon | .paging | .seek => true
  | _ => false

/-- Listens of purpose BLOCK (R47). -/
def hearsBlock (k : Kind) : Bool :=
  match k with
  | .rxVoice | .rxControl => true
  | _ => false

/-- A seek listen of the grid, which is for no frame (R28). -/
def Occ.isGrid (o : Occ) : Bool := o.asksFor .a .seek || o.asksFor .b .seek

/-- The report of the occupancy is routed on: it keeps its allocation and a requester (R38, R51). -/
def State.routes (s : State) (o : Occ) : Bool := s.fresh o && !o.orphan

/-- A STARTED occupancy ends: it leaves the list and its outcome goes to its requesters (R39). -/
def State.conclude (s : State) (h : Handle) (e : Ending) : State :=
  match s.rpl.plan.find? fun o => o.handle == h && o.started with
  | none => s
  | some o => (s.dropOccs fun p => p.handle == h && p.started).deliver o e

/-- An occupancy ends DONE (R48, R49). -/
def State.concludeDone (s : State) (h : Handle) : State :=
  (s.linkUpd s.rpl.totalSilent 0).conclude h .done

/-! ### Misses (R27) -/

/-- A beacon listen of a LOCKED or HOLDOVER context that did not hear its beacon: a miss of the context. One from which every
requester has been withdrawn counts none, also where it ends SILENT (R27, R38, R49; notes/assumptions/80.md). -/
def State.missBeacon (s : State) (o : Occ) : State :=
  if s.routes o && (s.ctx o.ctx).follows && hearsBeacon o.kind && !o.isGrid then s.modCtx o.ctx Ctx.miss else s

/-- The windows that the occupancy was to hear are missed (R68). -/
def State.missWindows (s : State) (o : Occ) : State :=
  if s.routes o then
    allSubs.foldl (fun s x =>
      if o.asksPaging x && s.servingCtx x == some o.ctx then s.windowMissed x else s) s
  else s

/-! ### Pagings (R7, R70, R71, R138) -/

/-- A CALL paging reaches the call unit (R138). -/
def State.incomingCall (s : State) (x : Sub) (capture : Nat) : State :=
  match s.ringingOf x with
  | some _ => s
  | none =>
    match allCalls.find? fun k => (s.call k).part.state == .free with
    | some k =>
      let ref := s.clu.nextRef.get x
      let s := (s.takeRef x).modCall k fun c => { c.afresh with ring := some (capture + ringTime) }
      s.callUpd k fun r => r.afresh x ref .ringing
    | none => s.subSet x fun r => { r with missedCalls := satInc max16 r.missedCalls }

/-- A TEXT paging of frame `f`, or a segment heard in it, extends a listen period that it carries further (R71). -/
def State.extendListen (s : State) (x : Sub) (f : Frame) : State :=
  match (s.sub x).listenEnd with
  | some e => if ahead (plusFrames f listenFrames) e then s.listenFrom x f else s
  | none => s

/-- A TEXT paging (R71). -/
def State.textPaging (s : State) (x : Sub) (f : Frame) : State :=
  if (s.sub x).state = .camped then
    if (s.sub x).listenEnd.isSome then s.extendListen x f else s.listenFrom x f
  else s

/-- A paging taken (R70). -/
def State.takePaging (s : State) (x : Sub) (b : Beacon) (r : PagingReason) : State :=
  let s := s.subUpd x fun t =>
    { t with lastReason := some r, lastPaging := b.capture, pagings := satInc max16 t.pagings }
  match r with
  | .call => s.incomingCall x b.capture
  | .text => s.textPaging x b.frame

/-- The beacon pages a tag for a reason, in the four entries that are read (R3, R7). -/
def pages (b : Beacon) (t : Tag) (r : PagingReason) : Bool :=
  (b.paging.take 4).any fun e => e.tag == t && e.reason == some r

/-- The pagings of a beacon for a subscription: the CALL first (R7, R70). -/
def State.takePagings (s : State) (x : Sub) (b : Beacon) : State :=
  let t := (s.set x).tag
  let s := if pages b t .call then s.takePaging x b .call else s
  if pages b t .text then s.takePaging x b .text else s

/-- The acknowledgement entries of a beacon for a subscription, in list order, an entry that repeats one being
disregarded (R3, R8). -/
def acksFor (b : Beacon) (t : Tag) : List (Ref × Nat) :=
  (b.acks.take 4).foldl (fun l e =>
    if e.tag = t ∧ e.index ≤ 7 ∧ l.contains (e.ref, e.index) = false then l ++ [(e.ref, e.index)] else l) []

/-- The acknowledgements of a beacon reach the text unit (R8, R157). -/
def State.takeAcks (s : State) (x : Sub) (b : Beacon) : State :=
  (acksFor b (s.set x).tag).foldl (fun s e => s.takeAck x b.frame e.1 e.2) s

/-! ### The mobility unit's part of a serving beacon (R97, R106, R124) -/

/-- A trigger of a CAMPED subscription starts a reselection (R106). -/
def State.startReselection (s : State) (x : Sub) (t : Trigger) : State :=
  let m := s.mbu.get x
  if m.inHand = none ∧ m.setAside ≠ some t.key then
    (s.modMbu x fun m => { m with inHand := some (t.key, t.index) }).allocate .verify x t.key
  else s

/-- A served paging window is a new wake (R106, R109): the key set aside is cleared, and a VERIFY request still deferred is
dropped. -/
def State.newWake (s : State) (x : Sub) : State :=
  let s := s.modMbu x fun m => { m with setAside := none }
  if s.tmu.deferred.any fun d => d.role == .verify && d.sub == x then s.dropReselection x else s

/-- The serving record is WEAK (R86). -/
def State.servingWeak (s : State) (x : Sub) : Bool :=
  match s.recordIn x .serving with
  | some r => (s.cell x r).weakLive
  | none => false

/-- The ranking of a served paging window (R97, R101, R106). -/
def State.rankWindow (s : State) (x : Sub) (barred : Bool) : State :=
  let s := s.newWake x
  if s.servingWeak x || barred then
    match s.evaluate x barred with
    | (s, some t) => s.startReselection x t
    | (s, none) => s
  else s.zeroDwell x

/-- The beacon ends the reversion of a reverting subscription (R124). -/
def State.endsReversion (s : State) (o : Occ) (x : Sub) (b : Beacon) : Bool :=
  (s.sub x).state == .moving && (s.machine x).state == .reverting && o.asksFor x .reversion
    && decide (b.capture < (s.machine x).leaveTime + reversionTime)

/-- The mobility unit's part of a serving beacon: the area code and the ranking (R97), or the end of a reversion, which makes
no area test (R124). A PAGING that a subscription CONNECTED since then started runs no evaluation
(notes/assumptions/83.md). -/
def State.mobilityBeacon (s : State) (o : Occ) (x : Sub) (b : Beacon) : State :=
  if s.endsReversion o x b then s.revertHandover x
  else
    let s := s.areaTest x b.area
    match (s.sub x).state with
    | .connected =>
      if o.asksBeacon x then
        let r := s.evaluate x false
        r.1.takeEvaluation x r.2
      else s
    | .camped => if o.asksPaging x then s.rankWindow x b.barred else s
    | _ => s

/-- The contents of a serving beacon handed for one subscription (R6, step 2). A served window resets missed windows
(R68). -/
def State.serveBeacon (s : State) (o : Occ) (b : Beacon) (x : Sub) : State :=
  if o.asks x && s.servingCtx x == some o.ctx && isBeacon o.kind then
    let s := if o.asksPaging x && (s.sub x).state == .camped then s.subSet x fun r => { r with missed := 0 } else s
    ((s.takePagings x b).takeAcks x b).mobilityBeacon o x b
  else s

/-! ### What a found cell brings (R29, R65, R107, R119) -/

/-- The found beacon reaches the search (R65). -/
def State.searchFound (s : State) (x : Sub) (c : Fin 3) (k : Key) (b : Beacon) : State :=
  match (s.sbc.get x).search.bind fun p => p.current with
  | none => s.removeUser c .search x
  | some (r, _) =>
    if b.barred then (((s.barMark x k).removeUser c .search x).nextAttempt x)
    else if (s.set x).tmin ≤ sampleOf b.level then s.camp x r c b.frame b.area
    else (s.removeUser c .search x).nextAttempt x

/-- The found beacon reaches the reselection (R107, R109). -/
def State.verifyFound (s : State) (x : Sub) (c : Fin 3) (k : Key) (b : Beacon) : State :=
  if b.barred then (s.barMark x k).dropReselection x else s.reselect x c k b.frame b.area

/-- The found beacon reaches the block of a seek user (R29). -/
def State.tellFound (s : State) (c : Fin 3) (k : Key) (b : Beacon) (u : User) : State :=
  match u.role with
  | .search => s.searchFound u.sub c k b
  | .verify => s.verifyFound u.sub c k b
  | .target => s.targetFound u.sub k b.frame b.barred b.area
  | .serving => s

/-- The seek users of a context whose seek runs. -/
def Ctx.finders (c : Ctx) : List User := c.users.filter fun u => isSeek u.role && u.deadline.isSome

/-- The seeks of a context end FOUND: no deadline runs, and its SEEK listens still GRANTED are withdrawn (R29, R38). -/
def State.endSeeks (s : State) (c : Fin 3) : State :=
  let s := s.modCtx c fun t => { t with users := t.users.map fun u => { u with deadline := none } }
  allSubs.foldl (fun s x => s.withdrawSeek x c) s

/-! ### A beacon (R4 to R6, R25, R29, R33) -/

/-- The beacon is accepted by the context (R4). -/
def accepts (c : Ctx) (b : Beacon) : Bool := decide (b.mismatch ≤ 2) && b.code == c.key.code

/-- A beacon's deviation from the predicted start of its frame (R24). -/
def deviation (c : Ctx) (b : Beacon) : Int := (b.capture : Int) - c.predict b.frame

/-- A rejected beacon (R4). -/
def State.rejectBeacon (s : State) (o : Occ) : State :=
  let k := (s.ctx o.ctx).key
  let s := allSubs.foldl (fun s x => if o.asks x then s.syncReject x k else s) s
  (s.missBeacon o).missWindows o

/-- The drift sample of a wake: from the first beacon of a context with a SERVING user (R33). -/
def State.wakeSample (s : State) (c : Ctx) (e : Int) : State :=
  if c.wakeMark && !s.pwc.sampled && (c.users.any fun u => u.role == .serving) then s.driftSample e else s

/-- The samples of a beacon (R84): for each requester of a BEACON or PAGING, and for each seek user told FOUND. -/
def State.sampleBeacon (s : State) (o : Occ) (b : Beacon) (k : Key) (found : List User) : State :=
  allSubs.foldl (fun s x =>
    if (isBeacon o.kind && o.asks x) || found.any fun u => u.sub == x then
      let served := o.asksPaging x && s.servingCtx x == some o.ctx
      s.sample x k b.level b.capture served
    else s) s

/-- The contents of a beacon (R6, step 2): for the serving requesters, A's part before B's (notes/assumptions/78.md), then for
the seek users told FOUND, in the order in which they joined (notes/assumptions/70.md). -/
def State.handContents (s : State) (o : Occ) (b : Beacon) (k : Key) (found : List User) : State :=
  let s := (s.serveBeacon o b .a).serveBeacon o b .b
  found.foldl (fun s u => s.tellFound o.ctx k b u) s

/-- A beacon ends a seek of a context in SEEK (R29). -/
def State.foundBeacon (s : State) (o : Occ) (b : Beacon) : State :=
  let c := s.ctx o.ctx
  let found := c.finders
  let s := (s.modCtx o.ctx fun t => t.found b.frame b.capture).endSeeks o.ctx
  (s.sampleBeacon o b c.key found).handContents o b c.key found

/-- A beacon inside the capture window of a LOCKED or HOLDOVER context (R25, R26, R33). -/
def State.trackBeacon (s : State) (o : Occ) (b : Beacon) : State :=
  let c := s.ctx o.ctx
  let e := deviation c b
  let found := c.finders
  let s := s.modCtx o.ctx fun t => t.track b.frame e
  let s := if c.reanchors e then s.reanchor o.ctx e else s
  let s := s.wakeSample c e
  let s := if found.isEmpty then s else s.endSeeks o.ctx
  (s.sampleBeacon o b c.key found).handContents o b c.key found

/-- A BEACON report taken by the timing unit (R4 to R6). -/
def State.routeBeacon (s : State) (o : Occ) (b : Beacon) : State :=
  let c := s.ctx o.ctx
  if s.routes o = false then s
  else if accepts c b = false then s.rejectBeacon o
  else if c.state = .seek then s.foundBeacon o b
  else if o.isGrid then s
  else if b.frame ≠ o.frame ∨ ¬ (deviation c b).natAbs ≤ c.window then (s.missBeacon o).missWindows o
  else s.trackBeacon o b

/-- The window was served: the beacon was accepted, of its frame and inside the window (R68). -/
def State.windowServed (s : State) (o : Occ) (b : Beacon) (x : Sub) : Bool :=
  let c := s.ctx o.ctx
  s.routes o && accepts c b && c.follows && b.frame == o.frame && decide ((deviation c b).natAbs ≤ c.window)
    && o.asksPaging x && s.servingCtx x == some o.ctx && (s.sub x).state == .camped

/-- A BEACON report (R6, R48), and the batch of each window it served (R91), A's before B's (notes/assumptions/82.md). -/
def State.beaconReport (s : State) (o : Occ) (b : Beacon) : State :=
  let wins := allSubs.filter fun x => s.windowServed o b x
  let s := (s.routeBeacon o b).concludeDone o.handle
  wins.foldl (fun s x =>
    if s.servingCtx x = some o.ctx ∧ (s.sub x).state = .camped then s.batch x o.ctx o.frame else s) s

/-! ### Control blocks (R9, R10) -/

/-- Every body field lies in its range (R9). -/
def validControl : Control → Bool
  | .assign ref down up eff =>
    decide (ref ≤ 255) && decide (1 ≤ down) && decide (down ≤ 3) && decide (4 ≤ up) && decide (up ≤ 6) && decide (eff ≤ 65535)
  | .reject ref cause => decide (ref ≤ 255) && decide (cause ≤ 255)
  | .release ref cause => decide (ref ≤ 255) && decide (cause ≤ 255)
  | .handoverOrder code channel down up offset =>
    decide (code ≤ 65535) && decide (channel ≤ 1023) && decide (1 ≤ down) && decide (down ≤ 3) && decide (4 ≤ up)
      && decide (up ≤ 6) && decide (-500 ≤ offset) && decide (offset ≤ 500)
  | .welcome ref => decide (ref ≤ 255)
  | .reportHeard => true
  | .textSegment ref index _ payload =>
    decide (ref ≤ 255) && decide (index ≤ 7) && decide (1 ≤ payload.length) && decide (payload.length ≤ segmentLen)
  | .other _ => false

/-- The subscription's radio-holding call of a ref (R144). -/
def State.callOfRef (s : State) (x : Sub) (ref : Ref) : Option (Fin 4) :=
  match s.callOf x with
  | some k => if (s.call k).part.ref = ref then some k else none
  | none => none

/-- An ASSIGN for a call (R145): `t` is the end of the slot it came in. -/
def State.takeAssign (s : State) (x : Sub) (c : Fin 3) (k : Fin 4) (down up : Nat) (f : Frame) (t : Nat) : State :=
  let g : Staged := { call := k, sub := x, down := down, up := up, frame := f }
  match (s.call k).part.state with
  | .dialling | .answering =>
    let s := s.withdraw x fun o => o.call == some k && o.kind == .txOpen && !o.started
    let s := s.modCall k fun t => { t with access := none }
    (s.callUpd k fun r => { r with state := .active, startTime := t }).stage c g
  | .active => s.stage c g
  | .releasing => if (s.call k).part.hasSlots && !handingOver (s.machine x).state then s.stage c g else s
  | _ => s

/-- The downlink cell of frame `f` of context `c`, stolen by the block that ends its call, is written whether or not its
predicted end has come (R147). -/
def State.writeStolen (s : State) (k : Fin 4) (c : Fin 3) (f : Frame) : State :=
  s.flush k fun p => p.frame == f && p.ctx == c && (match p.outcome with | some (.stolen, _) => true | _ => false)

/-- A block heard on context `c` in frame `f` ends a call, and its handover with it (R126, R146, R147). -/
def State.endByBlock (s : State) (x : Sub) (c : Fin 3) (f : Frame) (k : Fin 4) (cause : CallCause) (byte : BitVec 8) :
    State :=
  let s := s.writeStolen k c f
  if s.holding k && handingOver (s.machine x).state then s.stopHandover x k cause byte else s.endCall k cause byte

/-- A REJECT for a call (R146). -/
def State.takeReject (s : State) (x : Sub) (c : Fin 3) (f : Frame) (k : Fin 4) (byte : BitVec 8) : State :=
  let r := (s.call k).part
  if r.state = .dialling ∨ r.state = .answering ∨ (r.state = .releasing ∧ r.hasSlots = false) then
    s.endByBlock x c f k .rejected byte
  else s

/-- A RELEASE from the cell for a call context (R126, R146): it answers a RELEASE from the host unless a handover is under
way. -/
def State.takeRelease (s : State) (x : Sub) (c : Fin 3) (f : Frame) (k : Fin 4) (byte : BitVec 8) : State :=
  s.endByBlock x c f k
    (if (s.call k).part.state = .releasing ∧ handingOver (s.machine x).state = false then .localRelease else .remoteRelease)
    byte

/-- The call context that a RELEASE of ref `ref` is for (R144). -/
def State.releaseMatch (s : State) (x : Sub) (ref : Ref) : Option (Fin 4) :=
  match s.callOfRef x ref with
  | some k => some k
  | none =>
    match allCalls.find? fun k => (s.call k).part.state == .answering && (s.call k).part.owner == x with
    | some k => some k
    | none => s.ringingOf x

/-! ### Text segments (R164 to R166) -/

/-- A receipt (R164): requested at once for the frame after `g` if that is the last planned one and its issue time is
ahead, otherwise at the next planning event. -/
def State.sendReceipt (s : State) (x : Sub) (c : Fin 3) (g : Frame) (ref : Ref) (i : Fin 8) (w : Option (Fin 4)) : State :=
  let f := plusFrames g 1
  let o := openOcc s x c .send f (.segmentReceipt ref i.val w)
  if (s.ctx c).lastPlanned = some f ∧ (s.now : Int) < o.issue then s.request o
  else
    { s with txu := { s.txu with receipts := s.txu.receipts ++ [{ sub := x, ref := ref, index := i.val, waiter := w }] } }

/-- A context that holds every segment completes (R166): delivered and its last segment receipted, in the frame after that of
the segment that completes it (notes/assumptions/99.md), or COMPLETE-WAITING. -/
def State.completeReasm (s : State) (x : Sub) (c : Fin 3) (g : Frame) (r : Fin 4) : State :=
  let s := (s.modReasm r fun t => { t with state := .completeWaiting, complete := s.now }).deliverWaiting
  let t := s.txu.reasm[r]
  match t.state, t.last with
  | .deliveredUnacked, some l => s.sendReceipt x c g t.ref l (some r)
  | _, _ => s

/-- A segment stored in a context (R164). A last segment is receipted only once its message is in an inbox slot (R166). -/
def State.storeSegment (s : State) (x : Sub) (c : Fin 3) (g : Frame) (r : Fin 4) (ref : Ref) (i : Fin 8) (last : Bool)
    (payload : List Byte) : State :=
  let s := s.modReasm r fun t => t.store i last payload s.now
  if (s.txu.reasm[r]).whole then s.completeReasm x c g r
  else if last then s
  else s.sendReceipt x c g ref i none

/-- A segment that is already held (R164); whether it is a last segment goes by the context's last index, and not by the flag
it carries (notes/assumptions/66.md). -/
def State.repeatSegment (s : State) (x : Sub) (c : Fin 3) (g : Frame) (r : Fin 4) (ref : Ref) (i : Fin 8) : State :=
  let s := s.modReasm r fun t => { t with lastTime := s.now }
  let t := s.txu.reasm[r]
  if t.last = some i then
    if t.state = .deliveredUnacked then s.sendReceipt x c g ref i (some r) else s
  else s.sendReceipt x c g ref i none

/-- A TEXT SEGMENT heard on the serving context in frame `g` (R164). One that disagrees with the last index leaves the last
segment time as it is (notes/assumptions/94.md). -/
def State.takeSegment (s : State) (x : Sub) (c : Fin 3) (g : Frame) (ref : Ref) (i : Fin 8) (last : Bool)
    (payload : List Byte) : State :=
  let s := s.extendListen x g
  match s.reasmOf x ref with
  | some r =>
    let t := s.txu.reasm[r]
    if t.disagrees i last then s
    else if (t.segs[i]).isSome then s.repeatSegment x c g r ref i
    else s.storeSegment x c g r ref i last payload
  | none =>
    match s.idleReasm with
    | some r =>
      (s.modReasm r fun _ => { Reasm.idle with state := .collecting, sub := x, ref := ref }).storeSegment
        x c g r ref i last payload
    | none => s.subSet x fun t => { t with reasmBusy := satInc max16 t.reasmBusy }

/-! ### Routing blocks (R10, R11) -/

/-- A WELCOME heard on context `c` (R120, R121). -/
def State.takeWelcome (s : State) (x : Sub) (c : Fin 3) (ref : Ref) : State :=
  let m := s.machine x
  match m.order, s.callOfRef x ref with
  | some o, some k =>
    if m.state = .arrive ∧ s.ctxOf .target x = some c then s.commitHandover x c k o else s
  | _, _ => s

/-- A control block for subscription `x`, heard on context `c` in frame `f`, its slot ending at `t` (R10). On
the target context a RELEASE is taken for the call alone (R126, R144; notes/assumptions/98.md). -/
def State.takeControl (s : State) (x : Sub) (c : Fin 3) (f : Frame) (t : Nat) (b : Control) : State :=
  let serving := s.servingCtx x == some c
  match b with
  | .assign ref down up eff =>
    match s.callOfRef x (BitVec.ofNat 8 ref) with
    | some k => if serving then s.takeAssign x c k down up (BitVec.ofNat 16 eff) t else s
    | none => s
  | .reject ref cause =>
    match s.callOfRef x (BitVec.ofNat 8 ref) with
    | some k => if serving then s.takeReject x c f k (BitVec.ofNat 8 cause) else s
    | none => s
  | .release ref cause =>
    if serving then
      match s.releaseMatch x (BitVec.ofNat 8 ref) with
      | some k => s.takeRelease x c f k (BitVec.ofNat 8 cause)
      | none => s
    else if (s.machine x).state = .arrive ∧ s.ctxOf .target x = some c then
      match s.callOfRef x (BitVec.ofNat 8 ref) with
      | some k => s.takeRelease x c f k (BitVec.ofNat 8 cause)
      | none => s
    else s
  | .handoverOrder code channel down up offset =>
    if serving then
      s.takeOrder x c f
        { key := { channel := BitVec.ofNat 10 channel, code := BitVec.ofNat 16 code }, down := down, up := up,
          offset := offset }
    else s
  | .welcome ref => s.takeWelcome x c (BitVec.ofNat 8 ref)
  | .reportHeard => if serving then s.reportHeard x f else s
  | .textSegment ref i last payload =>
    if serving then s.takeSegment x c f (BitVec.ofNat 8 ref) (Fin.ofNat 8 i) last payload else s
  | .other _ => s

/-- A decoded control block: discarded, or taken for the requester whose tag it carries (R9, R10). The end of its slot is
counted from the frame's start as R1 has it: the beacon's capture time where it is held (notes/assumptions/65.md). -/
def State.routeControl (s : State) (o : Occ) (tag : Tag) (b : Control) : State :=
  if validControl b then
    allSubs.foldl (fun s x =>
      if o.asks x && (s.set x).tag == tag then 
        s.takeControl x o.ctx o.frame ((s.ctx o.ctx).frameSlotEnd o.frame o.slot) b
      else s) s
  else s

/-- The downlink outcome of a BLOCK report in the call's down slot (R11, R150). -/
def blockOutcome : Option DownBlock → DownOutcome × List Byte
  | none => (.bad, [])
  | some (.voice p) => if p.length ≤ 40 then (.received, p) else (.bad, [])
  | some (.control _ _) => (.stolen, [])

/-- A BLOCK report routed (R11). -/
def State.routeBlock (s : State) (o : Occ) (b : Option DownBlock) : State :=
  if s.routes o = false then s
  else
    let s := match o.kind, o.call with
      | .rxVoice, some k => s.downOutcome k o.frame (blockOutcome b).1 (blockOutcome b).2
      | _, _ => s
    match b with
    | some (.control tag body) => s.routeControl o tag body
    | _ => s

/-! ### Levels (R92, R94) -/

/-- A LEVEL report routed: a sample of the measured record, or a probe's result (R84, R92, R94). It answers the probe then
pending for the record and key, also where that one was posted after the MEASURE's own probe was settled, or where the key has
been another meanwhile (notes/assumptions/74.md and 92.md). -/
def State.routeLevel (s : State) (o : Occ) (level : Nat) : State :=
  if s.routes o = false then s
  else
    match o.content with
    | .level k none => allSubs.foldl (fun s x => if o.asks x then s.sample x k level s.now false else s) s
    | .level k (some r) =>
      allSubs.foldl (fun s x =>
        if o.asks x && (s.cell x r).used && (s.cell x r).key == k then s.completeProbe x r (some (sampleOf level)) else s) s
    | _ => s

/-! ### Silence (R49) -/

/-- An occupancy ends SILENT (R27, R49). -/
def State.concludeSilent (s : State) (o : Occ) : State :=
  let s := s.linkUpd (satInc max16 s.rpl.totalSilent) (satInc max16 s.rpl.runSilent)
  (s.missBeacon o).conclude o.handle .silent

end Sys2Proof.Machine
end

