-- ==== Sys2Proof/Machine/Takes.lean ====
section
/-! DEFINITION. What the owners of the areas do when they take a scan (R57, R80, R133, R153, R168, R184, R185). -/

namespace Sys2Proof.Machine

/-! ### SUBS (R57, R60 to R62, R74) -/

/-- An enable of 1 taken (R60). -/
def State.enableSub (s : State) (x : Sub) : State :=
  if (s.sub x).state = .off then
    (s.subUpd x fun r => { r with state := .searching, cause := .enabled }).beginPass x
  else s.modSbc x fun b => { b with disableHeld := false }

/-- An enable of 0 taken (R61, R62). -/
def State.disableSub (s : State) (x : Sub) : State :=
  match (s.sub x).state with
  | .off => s
  | .connected | .moving => s.modSbc x fun b => { b with disableHeld := true }
  | _ => s.goOff x

/-- An area-ack stamp taken (R74). -/
def State.ackArea (s : State) (x : Sub) (t : Stamp) : State :=
  s.subSet x fun r => if t = r.areaStamp then { r with areaFlag := false, prevArea := none } else r

/-- The host half of one subscription record taken; an unchanged one leaves the record as it is (R57). The area-ack stamp of a
changed one is taken with the rest, itself changed or not (R74; notes/assumptions/71.md). -/
def State.takeSettings (s : State) (x : Sub) : State :=
  let h := s.readSettings x
  if h = s.set x then s
  else
    let s := (s.modSbc x fun b => { b with set := h }).ackArea x h.ack
    if h.enable then s.enableSub x else s.disableSub x

/-- A take of SUBS (R57, R185): A before B (notes/assumptions/72.md). -/
def State.takeSubs (s : State) : State := ((s.scanClear .subs).takeSettings .a).takeSettings .b

/-! ### CELLS (R80) -/

/-- A search is told that records of its table have changed (R64, R65, R67). -/
def State.searchNotice (s : State) (x : Sub) (l : List (Fin 18)) : State :=
  if (s.sub x).state = .lost then (s.subUpd x fun r => { r with state := .searching }).beginPass x
  else
    match (s.sbc.get x).search with
    | none => s
    | some p =>
      let s := s.modSbc x fun b => { b with search := some { p with changed := true } }
      match p.current with
      | some (r, _) => if l.contains r then (s.removeRole .search x).nextAttempt x else s
      | none => s

/-- The reselection that was in hand before a take is dropped where its candidate's record has been initialised by it: taken
as a guest for another record, or changed by the host where it stands. One whose record has moved goes on (R80 to R83,
R109). -/
def State.candidateNotice (s : State) (x : Sub) (had : Option (Key × Fin 18)) (l : List (Fin 18)) : State :=
  match had, (s.mbu.get x).inHand with
  | some _, none => s.dropReselection x
  | some (_, r), some (_, q) => if q = r ∧ l.contains r then s.dropReselection x else s
  | none, _ => s

/-- The notice of a take to one subscription: the reselection it had in hand, and the records changed (R80, R109). -/
def State.cellsNotice (s : State) (x : Sub) (had : Option (Key × Fin 18)) (l : List (Fin 18)) : State :=
  if l.isEmpty then s else (s.candidateNotice x had l).searchNotice x l

/-- A take of CELLS (R80, R185): A is told before B (notes/assumptions/72.md). -/
def State.takeCells (s : State) : State :=
  let s := s.scanClear .cells
  let t := s.takeTables
  (t.cellsNotice .a s.mbu.a.inHand (s.changedRecords .a)).cellsNotice .b s.mbu.b.inHand (s.changedRecords .b)

/-! ### CALLS (R133 to R137) -/

/-- The taken stamp and the result of a request (R133). -/
def CallRec.answered (r : CallRec) (t : Stamp) (v : CallResult) : CallRec := { r with taken := t, result := v }

/-- A request refused: it changes the taken stamp and the result only (R133). -/
def State.refuseCall (s : State) (k : Fin 4) (t : Stamp) (v : CallResult) : State :=
  s.callUpd k fun r => r.answered t v

/-- A DIAL accepted (R132, R134). -/
def State.acceptDial (s : State) (k : Fin 4) (t : Stamp) (x : Sub) : State :=
  let s := s.connect x
  let ref := s.clu.nextRef.get x
  let dial := s.callDial k
  let s := (s.takeRef x).modCall k fun c =>
    { c.afresh with dial := dial, access := some { dial := true, attempts := 0, next := .nextEvent, first := none } }
  s.callUpd k fun r => (r.afresh x ref .dialling).answered t .ok

/-- A DIAL taken (R133, R134). -/
def State.takeDial (s : State) (k : Fin 4) (t : Stamp) : State :=
  match s.callSub k with
  | none => s.refuseCall k t .badRequest
  | some x =>
    let st := (s.call k).part.state
    if ¬ (st = .free ∨ st = .ended) then s.refuseCall k t .wrongState
    else if s.anyHolding then s.refuseCall k t .busyRadio
    else if s.canConnect x = false then s.refuseCall k t .noService
    else s.acceptDial k t x

/-- An ANSWER taken (R135). -/
def State.takeAnswer (s : State) (k : Fin 4) (t : Stamp) : State :=
  let r := (s.call k).part
  if r.state ≠ .ringing then s.refuseCall k t .wrongState
  else if s.anyHolding then s.refuseCall k t .busyRadio
  else if s.canConnect r.owner = false then s.refuseCall k t .noService
  else
    let s := (s.connect r.owner).modCall k fun c =>
      { c with ring := none, access := some { dial := false, attempts := 0, next := .nextEvent, first := none } }
    s.callUpd k fun r => { r.answered t .ok with state := .answering }

/-- A release begins: RELEASING with its first send planned (R136, R143). -/
def State.beginRelease (s : State) (k : Fin 4) (t : Stamp) (next : NextSend) : State :=
  (s.modCall k fun c => { c with access := none, release := some { sends := 0, next := next, first := none } }).callUpd k
    fun r => { r.answered t .ok with state := .releasing }

/-- A claim for a REPORT (R113). -/
def isReport : Uplink → Bool
  | .report _ _ _ => true
  | _ => false

/-- A RELEASE taken from the host (R127, R136, R139). -/
def State.takeHostRelease (s : State) (k : Fin 4) (t : Stamp) : State :=
  let r := (s.call k).part
  match r.state with
  | .ringing =>
    let serving := (s.servingCtx r.owner).isSome
    let s := s.closeCall k .declined 0
    let s := if serving then s.setDecline r.owner (some r.ref) else s
    s.modCall k fun c => { c with part := c.part.answered t .ok }
  | .dialling | .answering =>
    (s.withdraw r.owner fun o => o.call == some k && o.kind == .txOpen && !o.started).beginRelease k t .nextEvent
  | .active =>
    (s.modMachine r.owner fun m => { m with claims := m.claims.filter fun c => !isReport c.2 }).beginRelease k t .nextEvent
  | .moving => s.beginRelease k t .waiting
  | .releasing => s.refuseCall k t .ok
  | .free | .ended => s.refuseCall k t .wrongState

/-- A FREE taken (R137). -/
def State.takeFree (s : State) (k : Fin 4) (t : Stamp) : State :=
  if (s.call k).part.state = .ended then
    s.callUpd k fun r => { r.answered t .ok with state := .free, cause := .none }
  else s.refuseCall k t .wrongState

/-- A call context at a take of CALLS: its notify-uplink flag, and its request if one is posted (R131, R133). -/
def State.takeCall (s : State) (k : Fin 4) : State :=
  let n := s.callNotify k
  let s := s.modCall k fun c => { c with notify := n }
  let t := s.callStamp k
  if t = (s.call k).part.taken then s
  else
    match s.callRequest k with
    | some .dial => s.takeDial k t
    | some .answer => s.takeAnswer k t
    | some .release => s.takeHostRelease k t
    | some .free => s.takeFree k t
    | none => s.refuseCall k t .badRequest

/-- A take of CALLS (R133, R185). -/
def State.takeCalls (s : State) : State := allCalls.foldl State.takeCall (s.scanClear .calls)

/-! ### OUTBOX (R153, R154, R159) -/

/-- The taken stamp and the result of a request (R153). -/
def OutSlot.answered (o : OutSlot) (t : Stamp) (v : OutResult) : OutSlot := { o with taken := t, result := v }

/-- A request answered, changing the taken stamp and the result only. -/
def State.refuseOut (s : State) (i : Fin 8) (t : Stamp) (v : OutResult) : State :=
  s.slotUpd i true fun o => o.answered t v

/-- The number of segments of a message (R151). -/
def segmentCount (n : Nat) : Nat := (n + (segmentLen - 1)) / segmentLen

/-- A SEND accepted (R153): the slot joins the queue, as its head if it is empty (R152). -/
def State.acceptSend (s : State) (i : Fin 8) (t : Stamp) (x : Sub) : State :=
  let body := s.outBody i
  let n := s.outLength i
  let ref := (s.side x).nextRef
  let isHead := (s.side x).queue.isEmpty
  let st := if isHead then headState (s.sub x).state else .queued
  let s := s.slotUpd i true fun o =>
    { o.answered t .ok with
      state := st, cause := .none, owner := x, withdraw := false, late := false, ref := ref, segments := segmentCount n,
      acked := 0, attempts := 0, restarts := 0, queued := s.now, final := 0, body := body }
  s.modSide x fun d =>
    let d := { d with queue := d.queue ++ [i], nextRef := d.nextRef + 1 }
    if isHead then d.fresh st s.now else d

/-- A SEND taken (R153). -/
def State.takeSend (s : State) (i : Fin 8) (t : Stamp) : State :=
  if (s.slot i).state ≠ .empty then s.refuseOut i t .wrongState
  else
    match s.outSub i with
    | none => s.refuseOut i t .badRequest
    | some x =>
      if ¬ (1 ≤ s.outLength i ∧ s.outLength i ≤ messageMax) then s.refuseOut i t .badLength
      else if (s.sub x).state = .off then s.refuseOut i t .noSubscription
      else s.acceptSend i t x

/-- A slot WITHDRAWN at once (R159); `back` takes back the attempt of a segment that never reached the air. -/
def State.withdrawSlot (s : State) (i : Fin 8) (t : Stamp) (back : Bool) : State :=
  (s.slotUpd i true fun o =>
    { (o.answered t .ok).finish .withdrawn s.now with
      attempts := if back then o.attempts - 1 else o.attempts }).leaveQueue (s.slot i).owner i

/-- The head's segment in flight is still GRANTED (R159). -/
def State.flightGranted (s : State) (f : Flight) : Bool :=
  !f.sent && s.rpl.plan.any fun o => o.handle == f.handle && o.kind == .txOpen && !o.started

/-- A WITHDRAW taken (R159). -/
def State.takeWithdraw (s : State) (i : Fin 8) (t : Stamp) : State :=
  let o := s.slot i
  let x := o.owner
  match o.state with
  | .queued => s.withdrawSlot i t false
  | .sending | .paused =>
    match (if s.head x = some i then (s.side x).flight else none) with
    | none => s.withdrawSlot i t false
    | some f =>
      if s.flightGranted f then
        (s.withdraw x fun p => p.handle == f.handle && p.kind == .txOpen && !p.started).withdrawSlot i t true
      else s.slotUpd i true fun o => { o.answered t .ok with withdraw := true }
  | _ => s.refuseOut i t .wrongState

/-- A FREE taken (R154). -/
def State.takeOutFree (s : State) (i : Fin 8) (t : Stamp) : State :=
  match (s.slot i).state with
  | .sent | .failed | .withdrawn => s.slotUpd i true fun o => { o.answered t .ok with state := .empty }
  | _ => s.refuseOut i t .wrongState

/-- An outbox slot at a take of OUTBOX: its notify flag, and its request if one is posted (R153). -/
def State.takeOut (s : State) (i : Fin 8) : State :=
  let n := s.outNotify i
  let s := s.modSlot i fun o => { o with notify := n }
  let t := s.outStamp i
  if t = (s.slot i).taken then s
  else
    match s.outRequest i with
    | some .send => s.takeSend i t
    | some .withdraw => s.takeWithdraw i t
    | some .free => s.takeOutFree i t
    | none => s.refuseOut i t .badRequest

/-- A take of OUTBOX (R153, R185). -/
def State.takeOutbox (s : State) : State := allSlots.foldl State.takeOut (s.scanClear .outbox)

/-! ### INBOX (R168) -/

/-- A take of INBOX: the release stamps are read, and waiting messages go into freed slots (R166, R168, R185). -/
def State.takeInbox (s : State) : State :=
  let s := s.scanClear .inbox
  (allSlots.foldl (fun s i => s.modInbox i fun b => { b with release := s.inRelease i }) s).deliverWaiting

/-! ### FAULT (R184) -/

/-- The fault record cleared, its stamp kept (R184). -/
def FaultRecord.cleared (f : FaultRecord) : FaultRecord :=
  { f with held := false, offset := 0, area := none, lanes := 0, time := 0, drops := 0 }

/-- A take of FAULT (R184, R185). -/
def State.takeFault (s : State) : State :=
  let s := s.scanClear .fault
  if s.exm.fault.held && s.faultAck == s.exm.fault.stamp then s.faultUpd FaultRecord.cleared else s

/-! ### The scans that are held (R186) -/

/-- The areas whose takes have no further effect (R185). -/
def noEffectArea : Area → Bool
  | .setup | .power | .voice => true
  | _ => false

/-- One area's bit taken by its owner, if it is set (R185). -/
def State.takeArea (s : State) (a : Area) : State :=
  if s.scanSet a then
    match a with
    | .subs => s.takeSubs
    | .cells => s.takeCells
    | .calls => s.takeCalls
    | .outbox => s.takeOutbox
    | .inbox => s.takeInbox
    | .fault => s.takeFault
    | .setup | .power | .voice => s.scanClear a
  else s

/-- The areas in the order of their bits. -/
def allAreas : List Area := [.setup, .subs, .cells, .calls, .voice, .outbox, .inbox, .fault, .power]

/-- The held bits taken at an entry to RUNNING or to RUN (R175, R186). -/
def State.takeHeld (s : State) : State := allAreas.foldl State.takeArea s

end Sys2Proof.Machine
end

