-- ==== Sys2Proof/Machine/View.lean ====
section
/-! DEFINITION. Exchange memory as the host sees it: which words are host-written, part-written or unassigned (11.1, R181), and
the word a host read returns, computed from the typed records by the layouts of chapter 12 (R195). -/

namespace Sys2Proof.Machine

/-! ### The map (11.1) -/

/-- The area holding a byte offset; none for unassigned space. -/
def areaOf (off : Nat) : Option Area :=
  if off < 0x100 then some .setup
  else if off < 0x140 then some .fault
  else if off < 0x180 then some .power
  else if off < 0x200 then none
  else if off < 0x600 then some .subs
  else if off < 0x800 then none
  else if off < 0x1100 then some .cells
  else if off < 0x1200 then none
  else if off < 0x1400 then some .calls
  else if off < 0x2000 then none
  else if off < 0x3000 then some .voice
  else if off < 0x3800 then some .outbox
  else if off < 0x4000 then some .inbox
  else none

/-- The word at a byte offset is host-written (11.1, chapter 12). -/
def hostWritten (off : Nat) : Bool :=
  match areaOf off with
  | some .setup => true
  | some .fault => decide (0x13C ≤ off)
  | some .power => false
  | some .subs => decide ((off - 0x200) % 512 < 256)
  | some .cells => decide ((off - 0x800) % 0x480 / 64 < 16) && decide ((off - 0x800) % 64 < 16)
  | some .calls => decide ((off - 0x1200) % 128 < 32)
  | some .voice => decide ((off - 0x2000) % 0x400 < 0x200)
  | some .outbox => decide ((off - 0x3000) % 256 < 192)
  | some .inbox => decide (252 ≤ (off - 0x3800) % 256)
  | none => false

/-! ### Encodings (12.6) -/

def subStateCode : SubState → Nat
  | .off => 0 | .searching => 1 | .camped => 2 | .connected => 3 | .moving => 4 | .lost => 5
def serviceCauseCode : ServiceCause → Nat
  | .none => 0 | .enabled => 1 | .windowsMissed => 2 | .cellLost => 3 | .failRun => 4 | .linkLost => 5
  | .handoverLost => 6 | .noCells => 7 | .notFound => 8
def speedCode : SpeedClass → Nat
  | .normal => 0 | .medium => 1 | .high => 2
def changeKindCode : ChangeKind → Nat
  | .reselect => 0 | .handover => 1
def cellRoleCode : CellRole → Nat
  | .none => 0 | .neighbour => 1 | .serving => 2 | .target => 3
def callStateCode : CallState → Nat
  | .free => 0 | .ringing => 1 | .dialling => 2 | .answering => 3 | .active => 4 | .moving => 5 | .releasing => 6
  | .ended => 7
def callCauseCode : CallCause → Nat
  | .none => 0 | .stopped => 1 | .noResponse => 2 | .localRelease => 3 | .remoteRelease => 4 | .rejected => 5
  | .declined => 6 | .notAnswered => 7 | .disabled => 8 | .handoverLost => 9 | .linkLost => 10
def callResultCode : CallResult → Nat
  | .ok => 0 | .busyRadio => 1 | .noService => 2 | .wrongState => 3 | .badRequest => 4
def upOutcomeCode : UpOutcome → Nat
  | .none => 0 | .taken => 1 | .sent => 2 | .missing => 3 | .stolen => 4 | .lent => 5 | .inhibited => 6
  | .suspended => 7 | .dropped => 8
def downOutcomeCode : DownOutcome → Nat
  | .none => 0 | .received => 1 | .bad => 2 | .lost => 3 | .stolen => 4 | .lent => 5 | .suspended => 6
def outStateCode : OutState → Nat
  | .empty => 0 | .queued => 1 | .sending => 2 | .paused => 3 | .sent => 4 | .failed => 5 | .withdrawn => 6
def failCauseCode : FailCause → Nat
  | .none => 0 | .noAck => 1 | .noService => 2 | .restartLimit => 3 | .stopped => 4
def outResultCode : OutResult → Nat
  | .ok => 0 | .badLength => 1 | .noSubscription => 2 | .wrongState => 3 | .badRequest => 4
def powerCode : Power → Nat
  | .run => 0 | .nap => 1 | .sleep => 2 | .waking => 3
def reasonCode : Option PagingReason → Nat
  | none => 0 | some .call => 1 | some .text => 2
def areaCode : Option Area → Nat
  | none => 0 | some a => areaBit a + 1

/-- A 48-bit time's low word and high half-word (R195). -/
def lowWord (t : Nat) : Nat := t % 2 ^ 32
def highHalf (t : Nat) : Nat := t / 2 ^ 32 % 2 ^ 16

/-! ### The words of each record's part-written half -/

/-- FAULT area, words 0 to 14 (12.1). -/
def faultWord (f : FaultRecord) (r : Rpl) : Nat → Nat
  | 0 => flag f.held 0 + place f.stamp.toNat 16 16
  | 1 => place f.offset.toNat 0 16 + place (areaCode f.area) 16 4 + place f.lanes.toNat 20 4
  | 2 => lowWord f.time
  | 3 => highHalf f.time + place f.drops 16 16
  | 4 => f.change.toNat
  | 5 => place r.totalSilent 0 16 + place r.runSilent 16 16
  | 6 => r.linkChange.toNat
  | _ => 0

/-- POWER record (12.1). -/
def powerWord (p : Pwc) : Nat → Nat
  | 0 => place (powerCode p.state) 0 2 + place p.sleeps 16 16
  | 1 => lowWord p.totalSleep
  | 2 => highHalf p.totalSleep + place p.wideWakes 16 16
  | 3 => p.lastSleep
  | 4 => (BitVec.ofInt 32 p.drift).toNat
  | 15 => p.change.toNat
  | _ => 0

/-- The words of a history entry (12.2). -/
def historyWord (h : HistoryEntry) : Nat → Nat
  | 0 => lowWord h.time
  | 1 => highHalf h.time + place (changeKindCode h.kind) 16 1
  | _ => place h.old.toNat 0 16 + place h.new.toNat 16 16

/-- Subscription record, words 64 to 127, by the word's number in the record (12.2). Beside a clear valid bit the serving record
index, the previous area code and the listen period end frame read 0 (notes/assumptions/103.md). -/
def subWord (r : SubRec) (w : Nat) : Nat :=
  match w with
  | 64 => place (subStateCode r.state) 0 3 + place (serviceCauseCode r.cause) 8 4 + place (speedCode r.speed) 16 2
          + flag r.areaFlag 24
  | 65 => (match r.serving with | some i => i.val + flag true 7 | none => 0) + place r.servingCode.toNat 16 16
  | 66 => place r.servingArea.toNat 0 12 + place r.areaStamp.toNat 16 16
  | 67 => match r.prevArea with | some a => place a.toNat 0 12 + flag true 15 | none => 0
  | 68 => place r.lending 0 8 + place r.missed 8 8 + place (reasonCode r.lastReason) 16 2 + flag r.listenEnd.isSome 20
  | 69 => (match r.listenEnd with | some f => f.toNat | none => 0) + place r.pagings 16 16
  | 70 => lowWord r.lastPaging
  | 71 => highHalf r.lastPaging + place r.missedCalls 16 16
  | 72 => place r.reasmBusy 0 16 + place r.handovers 16 16
  | 73 => place r.reverts 0 16 + place r.drops 16 16
  | 74 => place r.reselections 0 16
  | 75 => r.evals
  | 76 => place r.history.length 0 4
  | 127 => r.change.toNat
  | _ =>
    if 77 ≤ w ∧ w ≤ 100 then
      match r.history[(w - 77) / 3]? with
      | some h => historyWord h ((w - 77) % 3)
      | none => 0
    else 0

/-- Cell record, words 4 to 15 (12.3). Where no probe level is held its bits read 0 (notes/assumptions/103.md). -/
def cellWord (c : CellRec) : Nat → Nat
  | 4 => place (cellRoleCode c.role) 0 2 + flag c.weakLive 4 + flag c.weakSeen 5 + place c.dwell 8 8
         + place c.failRun 16 8 + place c.lastSample 24 8
  | 5 => place c.key.code.toNat 0 16 + place c.key.channel.toNat 16 10
  | 6 => place c.level 0 16 + place c.count 16 16
  | 7 => c.evalNo
  | 8 => lowWord c.lastTime
  | 9 => highHalf c.lastTime + place c.syncRejects 16 16
  | 10 => lowWord c.barredUntil
  | 11 => highHalf c.barredUntil + place (highHalf c.quietUntil) 16 16
  | 12 => lowWord c.quietUntil
  | 13 => place c.weakTaken.toNat 0 16 + place c.probeTaken.toNat 16 16
  | 14 => match c.probeLevel with | some l => place l 0 8 + flag true 8 | none => 0
  | 15 => c.change.toNat
  | _ => 0

/-- Call context, words 8 to 31 (12.4). -/
def callWord (r : CallRec) (w : Nat) : Nat :=
  match w with
  | 8 => place r.taken.toNat 0 16 + place (callResultCode r.result) 16 8
  | 9 => place (callStateCode r.state) 0 4 + place (subNum r.owner) 8 1 + place (callCauseCode r.cause) 16 4
         + place r.causeByte.toNat 24 8
  | 10 => place r.ref.toNat 0 8 + place r.down 8 4 + place r.up 12 4 + place r.epoch.toNat 16 8
  | 11 => place r.baseFrame.toNat 0 16 + place (highHalf r.baseTime) 16 16
  | 12 => lowWord r.baseTime
  | 13 => lowWord r.startTime
  | 14 => lowWord r.endTime
  | 15 => highHalf r.startTime + place (highHalf r.endTime) 16 16
  | 16 => place r.ups.sent 0 16 + place r.ups.missing 16 16
  | 17 => place r.ups.stolen 0 16 + place r.ups.lent 16 16
  | 18 => place r.ups.inhibited 0 16 + place r.ups.suspended 16 16
  | 19 => place r.ups.dropped 0 16
  | 20 => place r.downs.received 0 16 + place r.downs.bad 16 16
  | 21 => place r.downs.lost 0 16 + place r.downs.stolen 16 16
  | 22 => place r.downs.lent 0 16 + place r.downs.suspended 16 16
  | 31 => r.change.toNat
  | _ =>
    match r.status[w - 23]? with
    | some e => if 23 ≤ w then place e.frame.toNat 0 16 + place (upOutcomeCode e.outcome) 16 4 else 0
    | none => 0

/-- The word of a byte string, four bytes a word. -/
def bytesWord (b : List Byte) (i : Nat) : Nat :=
  (wordOfBytes (b.getD (4 * i) 0) (b.getD (4 * i + 1) 0) (b.getD (4 * i + 2) 0) (b.getD (4 * i + 3) 0)).toNat

/-- Downlink voice cell (12.4). -/
def downCellWord (d : DownCell) (w : Nat) : Nat :=
  match w with
  | 0 => place d.frame.toNat 0 16 + place (downOutcomeCode d.outcome) 16 4
  | 1 => place d.epoch.toNat 0 8 + place d.length 8 8
  | 2 => lowWord d.time
  | 3 => highHalf d.time
  | 15 => d.change.toNat
  | _ => if 4 ≤ w ∧ w ≤ 13 then bytesWord d.payload (w - 4) else 0

/-- Outbox slot, words 48 to 63 (12.5). -/
def outWord (o : OutSlot) : Nat → Nat
  | 48 => place o.taken.toNat 0 16 + place (outResultCode o.result) 16 8
  | 49 => place (outStateCode o.state) 0 3 + place (failCauseCode o.cause) 8 3 + place (subNum o.owner) 12 1
          + flag o.withdraw 16 + flag o.late 17
  | 50 => place o.ref.toNat 0 8 + place o.segments 8 4 + place o.acked 12 4 + place o.attempts 16 3
          + place o.restarts 20 3
  | 51 => lowWord o.queued
  | 52 => lowWord o.final
  | 53 => highHalf o.queued + place (highHalf o.final) 16 16
  | 63 => o.change.toNat
  | _ => 0

/-- Inbox slot, words 0 to 62 (12.5). -/
def inWord (i : InSlot) (w : Nat) : Nat :=
  match w with
  | 0 => place i.fill.toNat 0 16 + place (subNum i.sub) 16 1 + place i.ref.toNat 24 8
  | 1 => place i.length 0 8 + place i.segments 8 4
  | 2 => lowWord i.time
  | 3 => highHalf i.time
  | 62 => i.change.toNat
  | _ => if 4 ≤ w ∧ w ≤ 47 then bytesWord i.body (w - 4) else 0

/-! ### The word a host read returns (R181) -/

/-- The record's number within an area, by the area's base and the record's length. -/
def recordNo (off base len : Nat) : Nat := (off - base) / len

/-- The part-written word at a byte offset. -/
def State.partWord (s : State) (off : Nat) : Nat :=
  match areaOf off with
  | some .setup => 0
  | some .fault => faultWord s.exm.fault s.rpl ((off - 0x100) / 4)
  | some .power => powerWord s.pwc ((off - 0x140) / 4)
  | some .subs => subWord (s.sub (if off < 0x400 then .a else .b)) ((off - 0x200) % 512 / 4)
  | some .cells =>
    cellWord (s.cell (if off < 0xC80 then .a else .b) (Fin.ofNat 18 ((off - 0x800) % 0x480 / 64))) ((off - 0x800) % 64 / 4)
  | some .calls => callWord (s.call (Fin.ofNat 4 (recordNo off 0x1200 128))).part ((off - 0x1200) % 128 / 4)
  | some .voice =>
    downCellWord ((s.call (Fin.ofNat 4 (recordNo off 0x2000 0x400))).cells[Fin.ofNat 8 ((off - 0x2000) % 0x200 / 64)])
      ((off - 0x2000) % 64 / 4)
  | some .outbox => outWord (s.slot (Fin.ofNat 8 (recordNo off 0x3000 256))) ((off - 0x3000) % 256 / 4)
  | some .inbox => inWord (s.txu.inbox[Fin.ofNat 8 (recordNo off 0x3800 256)]) ((off - 0x3800) % 256 / 4)
  | none => 0

/-- The word of exchange memory a host read at a word index returns: what the host wrote, what the part wrote, or zero
for unassigned space; zero while the RESET pin is asserted (R181). -/
def State.readWord (s : State) (w : BitVec 14) : Word :=
  let off := 4 * w.toNat
  if s.pins.resetHeld then 0
  else if hostWritten off then s.hostWord off
  else BitVec.ofNat 32 (s.partWord off)

/-- CLOCK_HI: the clock latch (R190). -/
def State.clockHi (s : State) : Word := if s.pins.resetHeld then 0 else BitVec.ofNat 32 s.exm.latch.toNat

/-- The word a host read at a word of the port's window returns, by what stands there: exchange memory, the seven registers, and
zero above them (11.1, R187, R190, R191). A read of CLOCK_LO also moves the latch, which is CLOCK_LO_READ's effect. -/
def State.readPort (s : State) (word : BitVec 15) : Word :=
  if word.toNat < 0x4000 then s.readWord (word.truncate 14)
  else match word.toNat - 0x4000 with
    | 0 => identWord
    | 1 => s.controlWord
    | 3 => s.exm.attn.zeroExtend 32
    | 4 => s.exm.enable.zeroExtend 32
    | 5 => if s.pins.resetHeld then 0 else BitVec.ofNat 32 (s.now % 2 ^ 32)
    | 6 => s.clockHi
    | _ => 0

end Sys2Proof.Machine
end

