-- ==== Sys2Proof/Machine/Control.lean ====
section
/-! DEFINITION. Running the part as a whole (chapter 11): reset, START, the entry to RUNNING, STOP, and the TXINHIBIT line. -/

namespace Sys2Proof.Machine

/-! ### Reset (R194) -/

/-- The whole part reset; the pins stand as they are driven, and the commands that wait still wait. -/
def State.resetPart (s : State) : State := { State.reset with pins := s.pins, pending := s.pending }

/-! ### TXINHIBIT (R53, R54) -/

/-- TXINHIBIT is taken as asserted: STARTED sends are ended by IDLE, GRANTED ones are revoked (R53). -/
def State.inhibitOn (s : State) : State :=
  let s := { s with rpl := { s.rpl with inhibit := true } }
  (s.rpl.plan.filter fun o => isTransmit o.kind).foldl (fun s o =>
    let s := s.dropOccs fun p => p.handle == o.handle
    if o.started then (s.send (.idle o.handle)).deliver o (.aborted true) else s.deliver o (.denied .inhibit)) s

/-- The inhibit hold of a context at the release of the line (R54). -/
def Ctx.inhibited (c : Ctx) (now : Nat) : Ctx :=
  if c.follows then { c with hold := some { release := c.frameAt now, waiting := true } } else c

/-- TXINHIBIT is taken as released: each LOCKED or HOLDOVER context enters its hold (R54). -/
def State.inhibitOff (s : State) : State :=
  let s := { s with rpl := { s.rpl with inhibit := false } }
  allCtx.foldl (fun s c => s.modCtx c fun t => t.inhibited s.now) s

/-- The line sampled (R174, R175): a change since it was last taken is taken now. -/
def State.sampleLine (s : State) : State :=
  if s.pins.txInhibit = s.rpl.inhibit then s
  else if s.pins.txInhibit then s.inhibitOn
  else s.inhibitOff

/-! ### START (R192) -/

/-- A subscription's start initialisation: its record's part-written half reset and its host half taken (R58, R110, R130,
R131, R151). -/
def State.startSub (s : State) (x : Sub) : State :=
  let h := s.readSettings x
  let s := s.subUpd x fun r => { SubRec.reset with change := r.change }
  let s := s.modSbc x fun b => { SbcX.reset with part := b.part, set := h }
  let s := (s.modMbu x fun _ => MbuX.reset).initTable x
  let s := s.modSide x fun _ => SendSide.reset
  s.setDecline x none

/-- The start initialisation of every block (R192). -/
def State.startBlocks (s : State) : State :=
  let s := (s.startSub .a).startSub .b
  let s := { s with clu := { s.clu with nextRef := ⟨0, 0⟩ }, tmu := { s.tmu with deferred := [] },
                    txu := { s.txu with reasm := Vector.replicate 4 Reasm.idle, receipts := [] } }
  ((s.takeTables).scanClear .subs).scanClear .cells

/-- The settings of the setup record held from START (R180), the power controller in RUN with its timer stopped (R179). -/
def State.startPower (s : State) : State :=
  let permit := s.setupPermit
  let sleep := s.setupMaxSleep
  { s with pwc := { s.pwc with permit := permit, maxSleep := sleep, timer := 0, target := 0 } }

/-- START taken while STOPPED (R192). -/
def State.startPart (s : State) : State :=
  if s.setupVersion = 1 then
    let s := s.startBlocks.startPower
    { s with exm := { s.exm with run := .starting, badSetup := false } }
  else { s with exm := { s.exm with badSetup := true } }

/-- The entry to RUNNING: enabled subscriptions search, held scans are taken, the line is sampled (R60, R186, R192).
Subscription A searches before B (notes/assumptions/72.md). -/
def State.enterRunning (s : State) : State :=
  let s := { s with exm := { s.exm with run := .running } }
  let s := allSubs.foldl (fun s x => if (s.set x).enable then s.enableSub x else s) s
  let s := s.takeHeld
  { s with rpl := { s.rpl with inhibit := s.pins.txInhibit } }

/-! ### STOP (R193) -/

/-- A subscription's blocks take STOP (R58, R77, R110, R130, R139). -/
def State.stopSub (s : State) (x : Sub) : State :=
  let s := (s.subSet x fun r => { r with state := .off, listenEnd := none }).dropProbes x
  let s := s.modSbc x fun b => { SbcX.reset with part := b.part, set := b.set }
  (s.modMbu x fun _ => MbuX.reset).setDecline x none

/-- STOP settles what is left of a withdraw pending: its slot is to be FAILED (STOPPED) like the rest of its queue, also where
its segment ends ABORTED first (R160, R193; notes/assumptions/31.md). -/
def State.dropWithdraws (s : State) : State :=
  allSlots.foldl (fun s i => s.modSlot i fun o => { o with withdraw := false }) s

/-- The planner takes STOP: IDLE naming all is sent, and every occupancy ends ABORTED (R55). -/
def State.stopPlan (s : State) : State :=
  let plan := s.rpl.plan
  let s := ({ s with rpl := { s.rpl with plan := [] } } : State).send .idleAll
  plan.foldl (fun s o => s.deliver o (.aborted false)) s

/-- The call unit takes STOP (R131, R147). -/
def State.stopCalls (s : State) : State :=
  allCalls.foldl (fun s k =>
    if s.holding k || (s.call k).part.state == .ringing then s.closeCall k .stopped 0 else s) s

/-- STOP taken in STARTING or RUNNING (R193): the plan list is emptied and its outcomes delivered first, and each block then
takes its own STOP (R55). The change of the power state alone raises no POWER bit (R178; notes/assumptions/86.md). -/
def State.stopPart (s : State) : State :=
  let s := s.dropWithdraws.stopPlan
  let s := ((s.failQueue .a .stopped).failQueue .b .stopped).stopCalls
  let s := (s.stopSub .a).stopSub .b
  let s := { s with
    tmu := { s.tmu with ctx := allCtx.foldl (fun v (c : Fin 3) => v.set c (v[c]).freed) s.tmu.ctx, deferred := [] }
    txu := { s.txu with reasm := Vector.replicate 4 Reasm.idle, receipts := [] } }
  let s := s.setPower .run
  let s := { s with pwc := { s.pwc with timer := 0, target := 0, accum := 0 } }
  ({ s with exm := { s.exm with run := .stopped, heldStop := false } } : State).clearMarks

/-- A CONTROL write that clears RUN (R174, R175, R191): taken at once, or held until RUN; in SLEEP it wakes the part. -/
def State.writeStop (s : State) : State :=
  if s.exm.run = .stopped then s
  else
    match s.pwc.state with
    | .sleep => ({ s with exm := { s.exm with heldStop := true } } : State).enterWaking s.pwc.timer
    | .waking => { s with exm := { s.exm with heldStop := true } }
    | _ => s.stopPart

/-! ### Host writes (R182, R183) -/

/-- A dropped write recorded: captured, or counted while a fault is held (R183). -/
def State.dropWrite (s : State) (off : Nat) (lanes : BitVec 4) : State :=
  let f := s.exm.fault
  if f.held then
    if f.drops < max16 then s.faultUpd fun f => { f with drops := f.drops + 1 } else s
  else
    s.faultUpd fun f =>
      { f with held := true, stamp := f.stamp + 1, offset := BitVec.ofNat 16 off, area := areaOf off, lanes := lanes,
               time := s.now }

/-- A host write of one word of exchange memory (R182). -/
def State.hostWrite (s : State) (word : BitVec 14) (lanes : BitVec 4) (data : Word) : State :=
  let off := 4 * word.toNat
  if hostWritten off then { s with exm := { s.exm with mem := memWriteLanes s.exm.mem off lanes data } }
  else if lanes = 0 then s
  else s.dropWrite off lanes

/-- A SCAN write (R174, R185): the 1 bits of its enabled lanes are added (R182). -/
def State.writeScan (s : State) (w : LaneWord) : State :=
  let s := { s with exm := { s.exm with scan := s.exm.scan ||| areasWritten w } }
  if s.pwc.state = .sleep then s.enterWaking s.pwc.timer else s

end Sys2Proof.Machine
end

