-- ==== Sys2Proof/Machine/Block.lean ====
section
/-! DEFINITION. The two shapes of a command's meaning: one that the host port, the pins or the clocks take whatever the
blocks do, and one that the blocks take while they work and at which the sleep decision is considered. -/

namespace Sys2Proof.Machine

/-- A command's outcome. -/
abbrev Result := Host.Outcome State Fault Refusal

/-- A command of the host port, a pin or a clock: time passes, then it acts if `guard` holds of the state it finds. -/
def State.direct (s : State) (after : Nat) (guard : State → Bool) (act : State → State) : Result :=
  let s := s.advance after
  .next (if guard s then act s else s)

/-- A command of the blocks: time passes, then it acts if the blocks work and `guard` holds, and what follows every such
command follows (R22, R30, R171). A command that is not due has no effect (notes/assumptions/3.md). -/
def State.block (s : State) (after : Nat) (guard : State → Bool) (act : State → State) : Result :=
  s.direct after (fun s => s.working && guard s) fun s => s.finish (act s)

/-- The RESET pin is not asserted. -/
def State.alive (s : State) : Bool := !s.pins.resetHeld

end Sys2Proof.Machine
end

