-- ==== Sys2Proof/Machine/Events.lean ====
section
/-! DEFINITION. The meanings of the timing contexts' own events and of the voice cells' writes (chapters 2, 4, 5, 8). -/

namespace Sys2Proof.Machine

/-- PLANNING_EVENT (R31). -/
def execPlanningEvent (after : Nat) (c : Fin 3) (s : State) : Result :=
  s.block after (fun s => (s.dueOffer c).isSome) fun s =>
    match s.dueOffer c with
    | some f => s.offer c f
    | none => s

/-- WINDOWED_PLANNING_EVENT (R32). -/
def execWindowedPlanningEvent (after : Nat) (c : Fin 3) (s : State) : Result :=
  s.block after (fun s => (s.dueWindowed c).isSome) fun s =>
    match s.dueWindowed c with
    | some f => s.offer c f
    | none => s

/-- SEEK_PLANNING_EVENT (R28). -/
def execSeekPlanningEvent (after : Nat) (c : Fin 3) (s : State) : Result :=
  s.block after (fun s => (s.ctx c).state == .seek && decide ((s.ctx c).seekEventTime (s.ctx c).listen ≤ s.now))
    fun s => s.seekEvent c

/-- The frame base that is due: the earliest voice frame whose start has come (R148). -/
def State.baseDue (s : State) (k : Fin 4) : Option (Frame × Nat) :=
  match (s.call k).bases, s.servingCtx (s.call k).part.owner with
  | f :: _, some c =>
    let t := (s.ctx c).startOf f
    if t ≤ s.now then some (f, t) else none
  | _, _ => none

/-- FRAME_BASE_WRITE (R148). -/
def execFrameBaseWrite (after : Nat) (k : Fin 4) (s : State) : Result :=
  s.block after (fun s => (s.baseDue k).isSome) fun s =>
    match s.baseDue k with
    | some (f, t) =>
      (s.modCall k fun c => { c with bases := c.bases.tail }).callUpd k fun r => { r with baseFrame := f, baseTime := t }
    | none => s

/-- DOWNLINK_CELL_WRITE (R150). -/
def execDownlinkCellWrite (after : Nat) (k : Fin 4) (f : Frame) (s : State) : Result :=
  let ready := fun s : State => (s.call k).pends.find? fun p => p.frame == f && s.downReady p
  s.block after (fun s => (ready s).isSome) fun s =>
    match ready s with
    | some p => s.downWrite k p
    | none => s

/-- HOLDOVER_ENTRY (R27). -/
def execHoldoverEntry (after : Nat) (c : Fin 3) (s : State) : Result :=
  s.block after (fun s => s.holdoverOut c) fun s =>
    s.modCtx c fun t => { t with state := .holdover, halfWindow := holdoverHalf }

/-- The block of a former user receives LOSS (R27, R63, R120, R128; notes/assumptions/13.md). -/
def State.tellLoss (s : State) (u : User) : State :=
  match u.role with
  | .serving =>
    match (s.sub u.sub).state with
    | .connected | .moving => s.linkFailure u.sub
    | .camped => s.enterSearching u.sub .cellLost
    | _ => s
  | .target => s.failHandover u.sub
  | .verify => s.dropReselection u.sub
  | .search => s.nextAttempt u.sub

/-- A context loses its cell (R27): its users are removed, it goes FREE, and each former user's block receives LOSS, in the
order in which the users joined (notes/assumptions/63.md). -/
def State.loseCell (s : State) (c : Fin 3) : State :=
  let us := (s.ctx c).users
  us.foldl State.tellLoss (s.freeCtx c)

/-- LOSS (R23, R27). -/
def execLoss (after : Nat) (c : Fin 3) (s : State) : Result :=
  s.block after (fun s => s.lossOut c) fun s => s.loseCell c

/-- WINDOWS_MISSED (R63, R68). -/
def execWindowsMissed (after : Nat) (x : Sub) (s : State) : Result :=
  s.block after (fun s => s.windowsOut x) fun s =>
    s.enterSearching x .windowsMissed

/-- FAIL_RUN (R63, R88). -/
def execFailRun (after : Nat) (x : Sub) (s : State) : Result :=
  s.block after (fun s => s.failRunAt x .camped idleFailLimit) fun s => s.enterSearching x .failRun

/-- LINK_FAILURE (R88, R128). -/
def execLinkFailure (after : Nat) (x : Sub) (s : State) : Result :=
  s.block after (fun s => s.failRunAt x .connected connectedFailLimit) fun s => s.linkFailure x

end Sys2Proof.Machine
end

