-- ==== Sys2Proof/Machine/HostPort.lean ====
section
/-! DEFINITION. The meanings of the host port's commands and of the pins (chapter 11; R53 to R56). -/

namespace Sys2Proof.Machine

/-- POWER_ON (R194). -/
def execPowerOn (after : Nat) (s : State) : Result := s.direct after (fun _ => true) State.resetPart

/-- RESET_PIN_ASSERT (R194): the part is reset and held so. -/
def execResetPinAssert (after : Nat) (s : State) : Result :=
  s.direct after (fun _ => true) fun s => { s.resetPart with pins := { s.pins with resetHeld := true } }

/-- RESET_PIN_RELEASE (R194): the part is released, STOPPED. -/
def execResetPinRelease (after : Nat) (s : State) : Result :=
  s.direct after (fun s => s.pins.resetHeld) fun s => { s with pins := { s.pins with resetHeld := false } }

/-- SOFTRESET (R191, R194): whatever the RUN bit holds. -/
def execSoftReset (after : Nat) (_runBit : Bool) (s : State) : Result := s.direct after State.alive State.resetPart

/-- START (R191, R192): taken while STOPPED. -/
def execStart (after : Nat) (s : State) : Result :=
  s.direct after (fun s => s.alive && s.exm.run == .stopped) State.startPart

/-- RUNNING_ENTRY (R192): sleep decisions begin. -/
def execRunningEntry (after : Nat) (s : State) : Result :=
  s.direct after (fun s => s.alive && s.exm.run == .starting) fun s => s.finishEntry s.enterRunning

/-- STOP (R191, R193). -/
def execStop (after : Nat) (s : State) : Result := s.direct after State.alive State.writeStop

/-- HOST_MEMORY_WRITE (R182, R183): ignored while the RESET pin is asserted. -/
def execHostMemoryWrite (after : Nat) (word : BitVec 14) (lanes : BitVec 4) (data : Word) (s : State) : Result :=
  s.direct after State.alive fun s => s.hostWrite word lanes data

/-- IGNORED_REGISTER_WRITE (R182): nothing changes, as for a CONTROL write that does not enable the lane of its two bits
(notes/assumptions/25.md). -/
def execIgnoredRegisterWrite (after : Nat) (_word : BitVec 15) (_written : LaneWord) (s : State) : Result :=
  s.direct after State.alive id

/-- SCAN_WRITE (R174, R185). -/
def execScanWrite (after : Nat) (written : LaneWord) (s : State) : Result :=
  s.direct after State.alive fun s => s.writeScan written

/-- PENDING_WRITE (R187): each bit written as 1 in an enabled lane is cleared. -/
def execPendingWrite (after : Nat) (written : LaneWord) (s : State) : Result :=
  s.direct after State.alive fun s => { s with exm := { s.exm with attn := s.exm.attn &&& ~~~ (areasWritten written) } }

/-- ENABLE_WRITE (R187): the mask's bits of the enabled lanes are replaced, the others kept (R182). -/
def execEnableWrite (after : Nat) (written : LaneWord) (s : State) : Result :=
  s.direct after State.alive fun s =>
    { s with exm := { s.exm with enable := (s.exm.enable &&& ~~~ (laneAreas written.lanes)) ||| areasWritten written } }

/-- CLOCK_LO_READ (R190): the low 32 bits are read and the upper 16 latched; zero while the RESET pin is asserted. -/
def execClockLoRead (after : Nat) (s : State) : Result :=
  s.direct after (fun _ => true) fun s =>
    if s.alive then
      { s with exm := { s.exm with readData := BitVec.ofNat 32 s.now, latch := BitVec.ofNat 16 (s.now / 2 ^ 32) } }
    else { s with exm := { s.exm with readData := 0 } }

/-- TXINHIBIT_ASSERT (R53): the line rises; it is taken at once while the blocks work, and sampled later otherwise
(R55, R174). -/
def execTxInhibitAssert (after : Nat) (s : State) : Result :=
  s.direct after (fun _ => true) fun s =>
    let s := { s with pins := { s.pins with txInhibit := true } }
    if s.working && !s.rpl.inhibit then s.finish s.inhibitOn else s

/-- TXINHIBIT_RELEASE (R54). -/
def execTxInhibitRelease (after : Nat) (s : State) : Result :=
  s.direct after (fun _ => true) fun s =>
    let s := { s with pins := { s.pins with txInhibit := false } }
    if s.working && s.rpl.inhibit then s.finish s.inhibitOff else s

end Sys2Proof.Machine
end

