-- ==== Sys2Proof/Machine/RadioLink.lean ====
section
/-! DEFINITION. The meanings of the radio link port's commands: issuing, silence and the five reports (R47 to R49). -/

namespace Sys2Proof.Machine

/-- The occupancy whose command is sent next, if it is due: commands leave in issue order (R47). -/
def State.issueNow (s : State) (h : Handle) : Option Occ :=
  match s.rpl.plan.find? fun o => !o.started with
  | some o => if o.handle = h ∧ o.issue ≤ (s.now : Int) then some o else none
  | none => none

/-- The command of an occupancy (R47). -/
def Occ.command (o : Occ) : RadioCommand :=
  match o.content with
  | .beacon => .listen o.handle o.channel o.start (o.stop - o.start) .beacon
  | .block => .listen o.handle o.channel o.start (o.stop - o.start) .block
  | .level _ _ => .listen o.handle o.channel o.start (o.stop - o.start) .level
  | .send tag b => .send o.handle o.channel o.start tag b

/-- An occupancy's command sent, after IDLE naming all if it is the first since a reset; a NAP ends (R47, R56, R172). -/
def State.issue (s : State) (o : Occ) : State :=
  let s := if s.rpl.idleDue then s.send .idleAll else s
  let s := s.send o.command
  let plan := s.rpl.plan.map fun (p : Occ) => if p.handle = o.handle then { p with started := true } else p
  let s := { s with rpl := { s.rpl with idleDue := false, plan := plan } }
  s.setPower .run

/-- A report of the kind `expects` for a handle is routed on, or discarded (R48). -/
def State.report (s : State) (after : Nat) (h : Handle) (expects : Kind → Bool) (act : Occ → State → State) : Result :=
  s.block after (fun s => (s.heardBy h expects).isSome) fun s =>
    match s.heardBy h expects with
    | some o => act o s
    | none => s

/-- COMMAND_ISSUE (R47). -/
def execCommandIssue (after : Nat) (h : Handle) (s : State) : Result :=
  s.block after (fun s => (s.issueNow h).isSome) fun s =>
    match s.issueNow h with
    | some o => s.issue o
    | none => s

/-- OCCUPANCY_SILENT (R49). -/
def execOccupancySilent (after : Nat) (h : Handle) (s : State) : Result :=
  let late := fun s : State => s.rpl.plan.find? fun o =>
    o.handle == h && o.started && decide (o.stop + reportGrace ≤ (s.now : Int))
  s.block after (fun s => (late s).isSome) fun s =>
    match late s with
    | some o => s.concludeSilent o
    | none => s

/-- BEACON_REPORT (R6). -/
def execBeaconReport (after : Nat) (h : Handle) (b : Beacon) (s : State) : Result :=
  s.report after h hearsBeacon fun o s => s.beaconReport o b

/-- NOTHING_REPORT (R27). -/
def execNothingReport (after : Nat) (h : Handle) (s : State) : Result :=
  s.report after h hearsBeacon fun o s => ((s.missBeacon o).missWindows o).concludeDone o.handle

/-- BLOCK_REPORT (R11). -/
def execBlockReport (after : Nat) (h : Handle) (b : Option DownBlock) (_level : Nat) (s : State) : Result :=
  s.report after h hearsBlock fun o s => (s.routeBlock o b).concludeDone o.handle

/-- LEVEL_REPORT (R92). -/
def execLevelReport (after : Nat) (h : Handle) (level : Nat) (s : State) : Result :=
  s.report after h (fun k => k == .measure) fun o s => (s.routeLevel o level).concludeDone o.handle

/-- SENT_REPORT (R48). -/
def execSentReport (after : Nat) (h : Handle) (s : State) : Result :=
  s.report after h isTransmit fun o s => s.concludeDone o.handle

end Sys2Proof.Machine
end

