-- ==== Sys2Proof/Machine/Scans.lean ====
section
/-! DEFINITION. The meanings of the scan takes (R185): each acts while its area's bit is set. -/

namespace Sys2Proof.Machine

/-- SUBS_SCAN_TAKE (R57). -/
def execSubsScanTake (after : Nat) (s : State) : Result := s.block after (State.scanSet .subs) State.takeSubs

/-- CELLS_SCAN_TAKE (R80). -/
def execCellsScanTake (after : Nat) (s : State) : Result := s.block after (State.scanSet .cells) State.takeCells

/-- CALLS_SCAN_TAKE (R133). -/
def execCallsScanTake (after : Nat) (s : State) : Result := s.block after (State.scanSet .calls) State.takeCalls

/-- OUTBOX_SCAN_TAKE (R153). -/
def execOutboxScanTake (after : Nat) (s : State) : Result := s.block after (State.scanSet .outbox) State.takeOutbox

/-- INBOX_SCAN_TAKE (R168). -/
def execInboxScanTake (after : Nat) (s : State) : Result := s.block after (State.scanSet .inbox) State.takeInbox

/-- FAULT_SCAN_TAKE (R184). -/
def execFaultScanTake (after : Nat) (s : State) : Result := s.block after (State.scanSet .fault) State.takeFault

/-- NO_EFFECT_SCAN_TAKE (R185): a take of SETUP, POWER or VOICE clears its bit. -/
def execNoEffectScanTake (after : Nat) (a : Area) (s : State) : Result :=
  s.block after (fun s => noEffectArea a && s.scanSet a) (State.scanClear a)

end Sys2Proof.Machine
end

