-- ==== Sys2Proof/Machine/Timers.lean ====
section
/-! DEFINITION. The meanings of the timers and limits of chapters 2 to 9. Each acts when its time has come or its planning
event is due. -/

namespace Sys2Proof.Machine

/-- A time held has come. -/
def State.dueAt (s : State) (t : Option Nat) : Bool :=
  match t with
  | some t => decide (t ≤ s.now)
  | none => false

/-- The planning event of the subscription's serving context that offers the frame, or the first ahead of it, is due or
has been raised. -/
def State.servingReached (s : State) (x : Sub) (f : Frame) : Bool :=
  match s.servingCtx x with
  | some c => s.reached c f
  | none => false

/-- A seek user's deadline has come (R28). -/
def Ctx.deadlinePast (c : Ctx) (r : Role) (x : Sub) (now : Nat) : Bool :=
  c.users.any fun u => u.role == r && u.sub == x && isSeek r
    && (match u.deadline with | some d => decide (d ≤ now) | none => false)

/-- A seek user is removed and its block told NOT FOUND (R28, R65, R109, R119). -/
def State.notFound (s : State) (c : Fin 3) (r : Role) (x : Sub) : State :=
  let k := (s.ctx c).key
  let s := s.removeUser c r x
  match r with
  | .search => s.nextAttempt x
  | .verify => (s.quietMark x k quietVerify).modMbu x fun m => { m with inHand := none }
  | .target => s.failHandover x
  | .serving => s

/-- SEEK_DEADLINE (R28). -/
def execSeekDeadline (after : Nat) (c : Fin 3) (r : Role) (x : Sub) (s : State) : Result :=
  s.block after (fun s => (s.ctx c).deadlinePast r x s.now) fun s => s.notFound c r x

/-- The retry of a LOST subscription (R67). -/
def State.lostDue (s : State) (x : Sub) : Bool := (s.sub x).state == .lost && s.dueAt (s.sbc.get x).lostRetry

/-- A LOST subscription searches again, keeping its cause (R67). -/
def State.retryLost (s : State) (x : Sub) : State := (s.subUpd x fun r => { r with state := .searching }).beginPass x

/-- LOST_RETRY (R67). -/
def execLostRetry (after : Nat) (x : Sub) (s : State) : Result :=
  s.block after (fun s => s.lostDue x) fun s => s.retryLost x

/-- LISTEN_PERIOD_END (R72): the planning event that offers a frame ahead of the end frame has been raised, or is due. Where it
is due only, the period ends before it, and a context that falls to WINDOWED no longer has it (notes/assumptions/100.md). -/
def execListenPeriodEnd (after : Nat) (x : Sub) (s : State) : Result :=
  s.block after (fun s => match (s.sub x).listenEnd with
      | some e => s.servingReached x (plusFrames e 1)
      | none => false) fun s => s.endListen x

/-- The expiry of a RINGING context has come (R139). -/
def State.ringDue (s : State) (k : Fin 4) : Bool := (s.call k).part.state == .ringing && s.dueAt (s.call k).ring

/-- RINGING_EXPIRY (R139). -/
def execRingingExpiry (after : Nat) (k : Fin 4) (s : State) : Result :=
  s.block after (fun s => s.ringDue k) fun s => s.endCall k .notAnswered 0

/-- ACCESS_TIMER_EXPIRY (R142): at its planning event, raised or due (notes/assumptions/100.md). -/
def execAccessTimerExpiry (after : Nat) (k : Fin 4) (s : State) : Result :=
  s.block after (fun s => match (s.call k).access.bind (fun a => a.first) with
      | some f => s.holding k && s.servingReached (s.call k).part.owner (plusFrames f accessFrames)
      | none => false) fun s => s.endCall k .noResponse 0

/-- RELEASE_TIMER_EXPIRY (R143): at its planning event, raised or due (notes/assumptions/100.md). -/
def execReleaseTimerExpiry (after : Nat) (k : Fin 4) (s : State) : Result :=
  s.block after (fun s => match (s.call k).release.bind (fun r => r.first) with
      | some f => s.holding k && s.servingReached (s.call k).part.owner (plusFrames f releaseFrames)
      | none => false) fun s => s.endCall k .localRelease 0

/-- REPORT_TIMER_EXPIRY (R115), where the planning event itself has not come first (notes/assumptions/58.md). -/
def execReportTimerExpiry (after : Nat) (x : Sub) (s : State) : Result :=
  s.block after (fun s => (s.machine x).state == .reported
      && (match (s.machine x).expiry with
          | some f => s.servingReached x f
          | none => false)) fun s => s.reportTimer x (s.nextFrame x)

/-- What LEAVE needs of the machine and the call (R118). -/
def State.leaving (s : State) (x : Sub) : Option (Fin 4 × Fin 3 × Frame × Order) :=
  let m := s.machine x
  match m.state, s.callOf x, m.oldCtx, m.orderFrame, m.order with
  | .leave, some k, some c, some f, some o => some (k, c, f, o)
  | _, _, _, _, _ => none

/-- LEAVE (R118): at the end of the order frame. -/
def execLeave (after : Nat) (x : Sub) (s : State) : Result :=
  s.block after (fun s => match s.leaving x with
      | some (_, c, f, _) => decide ((s.ctx c).startOf (plusFrames f 1) ≤ s.now)
      | none => false) fun s =>
    match s.leaving x with
    | some (k, c, f, o) => s.leaveOld x k c f o
    | none => s

/-- ARRIVE_TIMEOUT (R120): at the predicted start of target frame N + 6. -/
def execArriveTimeout (after : Nat) (x : Sub) (s : State) : Result :=
  s.block after (fun s => (s.machine x).state == .arrive
      && (match s.ctxOf .target x, (s.machine x).lock with
          | some c, some n => decide ((s.ctx c).startOf (plusFrames n arriveLimit) ≤ s.now)
          | _, _ => false)) fun s => s.failHandover x

/-- SECOND_FAILURE (R125): at the reversion deadline. -/
def execSecondFailure (after : Nat) (x : Sub) (s : State) : Result :=
  s.block after (fun s => (s.machine x).state == .reverting && decide ((s.machine x).leaveTime + reversionTime ≤ s.now))
    fun s => s.secondFailure x

/-- The acknowledgement window that closes now: the frame its segment was sent in (R156). -/
def State.closingWindow (s : State) (x : Sub) : Option Frame :=
  match (s.side x).flight with
  | some f => if f.sent && s.servingReached x (plusFrames f.frame ackClose) then some f.frame else none
  | none => none

/-- ACK_WINDOW_CLOSE (R156, R158), where the planning event itself has not come first (notes/assumptions/68.md). -/
def execAckWindowClose (after : Nat) (x : Sub) (s : State) : Result :=
  s.block after (fun s => (s.closingWindow x).isSome) fun s =>
    match s.closingWindow x with
    | some f => s.closeWindow x f
    | none => s

/-- NO_ACK (R158). -/
def execNoAck (after : Nat) (x : Sub) (s : State) : Result :=
  s.block after (fun s => (s.side x).plan == .exhausted) fun s => s.failHead x .noAck

/-- RESTART_LIMIT (R162). -/
def execRestartLimit (after : Nat) (x : Sub) (s : State) : Result :=
  s.block after (fun s => s.restartsOut x) fun s => s.failHead x .restartLimit

/-- PAUSE_EXPIRY (R161). -/
def execPauseExpiry (after : Nat) (x : Sub) (s : State) : Result :=
  s.block after (fun s => s.dueAt (s.side x).pause) fun s => s.failHead x .noService

/-- The timeout of a reassembly context has come (R167). -/
def State.reasmDue (s : State) (r : Fin 4) : Bool :=
  s.txu.reasm[r].state != .idle && decide (s.txu.reasm[r].lastTime + reasmTime ≤ s.now)

/-- A reassembly context is discarded with nothing sent (R167). -/
def State.discardReasm (s : State) (r : Fin 4) : State := s.modReasm r fun _ => Reasm.idle

/-- REASSEMBLY_TIMEOUT (R167). -/
def execReassemblyTimeout (after : Nat) (r : Fin 4) (s : State) : Result :=
  s.block after (fun s => s.reasmDue r) fun s => s.discardReasm r

end Sys2Proof.Machine
end

