-- ==== Sys2Proof/Machine/Wake.lean ====
section
/-! DEFINITION. The meanings of the power controller's own commands (chapter 10). -/

namespace Sys2Proof.Machine

/-- NAP_END (R172): the next plan time has come. -/
def execNapEnd (after : Nat) (s : State) : Result :=
  s.direct after (fun s => s.working && s.pwc.state == .nap
      && (match s.nextPlan with
          | some t => decide (t ≤ (s.now : Int))
          | none => false)) (State.setPower · .run)

/-- SLOW_TIMER_EXPIRY (R174, R175). -/
def execSlowTimerExpiry (after : Nat) (s : State) : Result :=
  s.direct after (fun s => s.alive && s.pwc.state == .sleep && decide (s.pwc.target ≤ s.pwc.timer)) fun s =>
    s.enterWaking s.pwc.target

/-- The occupancies whose issue time passed end MISSED, in start order (R50). -/
def State.missIssues (s : State) : State :=
  let late := fun o : Occ => !o.started && decide (o.issue < (s.now : Int))
  let gone := s.rpl.plan.filter late
  gone.foldl (fun s o => s.deliver o .missed) (s.dropOccs late)

/-- The windowed events that fell due while the part slept (R32): one for each context, in the contexts' order
(notes/assumptions/89.md). -/
def State.lateEvents (s : State) : State :=
  allCtx.foldl (fun s c => match s.dueWindowed c with | some f => s.offer c f | none => s) s

/-- The timers that ran out while the part slept (R67, R139, R161, R167), A's retry before B's (notes/assumptions/72.md). -/
def State.lateTimers (s : State) : State :=
  let s := allSubs.foldl (fun s x => if s.lostDue x then s.retryLost x else s) s
  let s := allCalls.foldl (fun s k => if s.ringDue k then s.endCall k .notAnswered 0 else s) s
  let s := allSubs.foldl (fun s x => if s.dueAt (s.side x).pause then s.failHead x .noService else s) s
  allReasm.foldl (fun s r => if s.reasmDue r then s.discardReasm r else s) s

/-- The entry to RUN from WAKING (R175): late work, held scans, a held STOP, the line, then the decision. -/
def State.enterRun (s : State) : State :=
  let s := s.powerUpd true fun p => { p with state := .run }
  let s := s.refresh
  let s := (s.missIssues.lateEvents.lateTimers).takeHeld
  if s.exm.heldStop then { s.stopPart with rpl := { s.stopPart.rpl with inhibit := s.pins.txInhibit } }
  else
    let s := s.sampleLine
    s.finishEntry s

/-- WAKING_END (R175). -/
def execWakingEnd (after : Nat) (s : State) : Result :=
  s.direct after (fun s => s.alive && s.pwc.state == .waking && decide (s.pwc.wakeEnd ≤ s.now)) State.enterRun

end Sys2Proof.Machine
end

