-- ==== Sys2Proof/Machine/Dispatch.lean ====
section
/-! DEFINITION. One arm for each command: its meaning. -/

namespace Sys2Proof.Machine

def exec (i : Instr) (s : State) : Host.Outcome State Fault Refusal :=
  match i with
  | .powerOn t => Sys2Proof.Machine.execPowerOn t s
  | .resetPinAssert t => Sys2Proof.Machine.execResetPinAssert t s
  | .resetPinRelease t => Sys2Proof.Machine.execResetPinRelease t s
  | .softReset t runBit => Sys2Proof.Machine.execSoftReset t runBit s
  | .start t => Sys2Proof.Machine.execStart t s
  | .runningEntry t => Sys2Proof.Machine.execRunningEntry t s
  | .stop t => Sys2Proof.Machine.execStop t s
  | .hostMemoryWrite t word lanes data => Sys2Proof.Machine.execHostMemoryWrite t word lanes data s
  | .ignoredRegisterWrite t word written => Sys2Proof.Machine.execIgnoredRegisterWrite t word written s
  | .scanWrite t written => Sys2Proof.Machine.execScanWrite t written s
  | .pendingWrite t written => Sys2Proof.Machine.execPendingWrite t written s
  | .enableWrite t written => Sys2Proof.Machine.execEnableWrite t written s
  | .clockLoRead t => Sys2Proof.Machine.execClockLoRead t s
  | .subsScanTake t => Sys2Proof.Machine.execSubsScanTake t s
  | .cellsScanTake t => Sys2Proof.Machine.execCellsScanTake t s
  | .callsScanTake t => Sys2Proof.Machine.execCallsScanTake t s
  | .outboxScanTake t => Sys2Proof.Machine.execOutboxScanTake t s
  | .inboxScanTake t => Sys2Proof.Machine.execInboxScanTake t s
  | .faultScanTake t => Sys2Proof.Machine.execFaultScanTake t s
  | .noEffectScanTake t area => Sys2Proof.Machine.execNoEffectScanTake t area s
  | .txInhibitAssert t => Sys2Proof.Machine.execTxInhibitAssert t s
  | .txInhibitRelease t => Sys2Proof.Machine.execTxInhibitRelease t s
  | .commandIssue t handle => Sys2Proof.Machine.execCommandIssue t handle s
  | .occupancySilent t handle => Sys2Proof.Machine.execOccupancySilent t handle s
  | .beaconReport t handle beacon => Sys2Proof.Machine.execBeaconReport t handle beacon s
  | .nothingReport t handle => Sys2Proof.Machine.execNothingReport t handle s
  | .blockReport t handle block level => Sys2Proof.Machine.execBlockReport t handle block level s
  | .levelReport t handle level => Sys2Proof.Machine.execLevelReport t handle level s
  | .sentReport t handle => Sys2Proof.Machine.execSentReport t handle s
  | .planningEvent t ctx => Sys2Proof.Machine.execPlanningEvent t ctx s
  | .windowedPlanningEvent t ctx => Sys2Proof.Machine.execWindowedPlanningEvent t ctx s
  | .seekPlanningEvent t ctx => Sys2Proof.Machine.execSeekPlanningEvent t ctx s
  | .frameBaseWrite t call => Sys2Proof.Machine.execFrameBaseWrite t call s
  | .downlinkCellWrite t call frame => Sys2Proof.Machine.execDownlinkCellWrite t call frame s
  | .holdoverEntry t ctx => Sys2Proof.Machine.execHoldoverEntry t ctx s
  | .loss t ctx => Sys2Proof.Machine.execLoss t ctx s
  | .windowsMissed t sub => Sys2Proof.Machine.execWindowsMissed t sub s
  | .failRun t sub => Sys2Proof.Machine.execFailRun t sub s
  | .linkFailure t sub => Sys2Proof.Machine.execLinkFailure t sub s
  | .seekDeadline t ctx role sub => Sys2Proof.Machine.execSeekDeadline t ctx role sub s
  | .lostRetry t sub => Sys2Proof.Machine.execLostRetry t sub s
  | .listenPeriodEnd t sub => Sys2Proof.Machine.execListenPeriodEnd t sub s
  | .ringingExpiry t call => Sys2Proof.Machine.execRingingExpiry t call s
  | .accessTimerExpiry t call => Sys2Proof.Machine.execAccessTimerExpiry t call s
  | .releaseTimerExpiry t call => Sys2Proof.Machine.execReleaseTimerExpiry t call s
  | .reportTimerExpiry t sub => Sys2Proof.Machine.execReportTimerExpiry t sub s
  | .leave t sub => Sys2Proof.Machine.execLeave t sub s
  | .arriveTimeout t sub => Sys2Proof.Machine.execArriveTimeout t sub s
  | .secondFailure t sub => Sys2Proof.Machine.execSecondFailure t sub s
  | .ackWindowClose t sub => Sys2Proof.Machine.execAckWindowClose t sub s
  | .noAck t sub => Sys2Proof.Machine.execNoAck t sub s
  | .restartLimit t sub => Sys2Proof.Machine.execRestartLimit t sub s
  | .pauseExpiry t sub => Sys2Proof.Machine.execPauseExpiry t sub s
  | .reassemblyTimeout t index => Sys2Proof.Machine.execReassemblyTimeout t index s
  | .napEnd t => Sys2Proof.Machine.execNapEnd t s
  | .slowTimerExpiry t => Sys2Proof.Machine.execSlowTimerExpiry t s
  | .wakingEnd t => Sys2Proof.Machine.execWakingEnd t s

end Sys2Proof.Machine
end

