-- ==== Sys2Proof/Machine/Step.lean ====
section
/-! DEFINITION. One step: the command at the front of the queue, or a tick of the running clock. -/

namespace Sys2Proof.Machine

/-- A step takes the command at the front of the queue and runs it with the queue's rest. With no command waiting, the clock
that runs ticks (R17, R174; notes/assumptions/4.md). -/
def step (s : State) : Host.Outcome State Fault Refusal :=
  match s.pending with
  | [] => .next s.tick
  | c :: q => exec c { s with pending := q }

/-- The command that a word spells, put at the front of the queue; the state unchanged where it spells none. -/
def State.withFetchWord (s : State) (nbits w : Nat) : State :=
  match Sys2Proof.decodeTableWord nbits w with
  | some c => { s with pending := c :: s.pending }
  | none => s

end Sys2Proof.Machine
end

