-- ==== Sys2Proof/Safety.lean ====
section
/-! DEFINITION. What always holds of the part between two steps. -/

namespace Sys2Proof.Machine

/-- Host-written memory is in its canonical form and holds bytes of host-written words alone (R181, R182). -/
def State.memOk (s : State) : Bool := memWf s.exm.mem && s.exm.mem.all fun c => hostWritten c.1

/-- No two occupancies of a list conflict (R40). -/
def noConflicts : List Occ → Bool
  | [] => true
  | o :: os => (os.all fun p => !o.conflicts p) && noConflicts os

/-- The plan list holds at most 32 occupancies, and no two of them conflict (R39, R40). -/
def State.planOk (s : State) : Bool := decide (s.rpl.plan.length ≤ planCapacity) && noConflicts s.rpl.plan

/-- The power state is RUN unless the part is RUNNING (R169, R179). -/
def State.powerOk (s : State) : Bool := s.exm.run == .running || s.pwc.state == .run

/-- At most one call context of the part is radio-holding (R132). -/
def State.oneCallOk (s : State) : Bool := decide ((allCalls.filter s.holding).length ≤ 1)

/-- The drift estimate lies within −3200..+3200 (R177). -/
def State.driftOk (s : State) : Bool := decide (-driftMax ≤ s.pwc.drift) && decide (s.pwc.drift ≤ driftMax)

/-- The part sleeps only while every SLEEP condition holds (R171) and no limit waits to be acted on (R27, R63, R68, R88). -/
def State.sleepOk (s : State) : Bool := s.pwc.state != .sleep || (s.sleepConditions.all id && !s.limitReached)

/-- A search pass is held only while its subscription is SEARCHING (R64, R66, R67); a radio-holding call belongs to a CONNECTED
or MOVING subscription of a RUNNING part (R59, R75, R192, R193); no request for a TARGET stays deferred (R119), and none at all
while the part is not RUNNING (R18, R22). -/
def State.serviceOk (s : State) : Bool :=
  (allSubs.all fun x => (s.sbc.get x).search.isNone || (s.sub x).state == .searching)
    && (allCalls.all fun k => !s.holding k || (s.exm.run == .running
      && ((s.sub (s.call k).part.owner).state == .connected || (s.sub (s.call k).part.owner).state == .moving)))
    && (s.tmu.deferred.all fun d => d.role != .target)
    && (s.exm.run == .running || s.tmu.deferred.isEmpty)

/-- A subscription is a TARGET user of one context at most, and of none unless the part is RUNNING, its handover machine is in
ACQUIRE or ARRIVE and it is CONNECTED or MOVING (R20, R111, R119, R120, R193). -/
def State.targetOk (s : State) : Bool :=
  allSubs.all fun x =>
    decide ((allCtx.filter fun c => (s.ctx c).hasUser .target x).length ≤
      if s.exm.run = .running ∧ ((s.machine x).state = .acquire ∨ (s.machine x).state = .arrive)
        ∧ ((s.sub x).state = .connected ∨ (s.sub x).state = .moving) then 1 else 0)

/-- The marks that live within one step are clear. -/
def State.marksOk (s : State) : Bool := !s.tmu.freed && !s.rpl.left

/-! ### Kinds of commands -/

/-- The time that passes before a command (notes/assumptions/1.md). -/
def delay : Instr → Nat
  | .powerOn t | .resetPinAssert t | .resetPinRelease t | .softReset t _ | .start t | .runningEntry t | .stop t
  | .hostMemoryWrite t _ _ _ | .ignoredRegisterWrite t _ _ | .scanWrite t _ | .pendingWrite t _ | .enableWrite t _
  | .clockLoRead t | .subsScanTake t | .cellsScanTake t | .callsScanTake t | .outboxScanTake t | .inboxScanTake t
  | .faultScanTake t | .noEffectScanTake t _ | .txInhibitAssert t | .txInhibitRelease t | .commandIssue t _
  | .occupancySilent t _ | .beaconReport t _ _ | .nothingReport t _ | .blockReport t _ _ _ | .levelReport t _ _
  | .sentReport t _ | .planningEvent t _ | .windowedPlanningEvent t _ | .seekPlanningEvent t _ | .frameBaseWrite t _
  | .downlinkCellWrite t _ _ | .holdoverEntry t _ | .loss t _ | .windowsMissed t _ | .failRun t _ | .linkFailure t _
  | .seekDeadline t _ _ _ | .lostRetry t _ | .listenPeriodEnd t _ | .ringingExpiry t _ | .accessTimerExpiry t _
  | .releaseTimerExpiry t _ | .reportTimerExpiry t _ | .leave t _ | .arriveTimeout t _ | .secondFailure t _
  | .ackWindowClose t _ | .noAck t _ | .restartLimit t _ | .pauseExpiry t _ | .reassemblyTimeout t _ | .napEnd t
  | .slowTimerExpiry t | .wakingEnd t => t

/-- A scan take (R185). -/
def isTake : Instr → Bool
  | .subsScanTake _ | .cellsScanTake _ | .callsScanTake _ | .outboxScanTake _ | .inboxScanTake _ | .faultScanTake _
  | .noEffectScanTake _ _ => true
  | _ => false

/-- A command that the blocks take while they work: a scan take, a report, an event or a timer. -/
def isBlockCommand : Instr → Bool
  | .powerOn _ | .resetPinAssert _ | .resetPinRelease _ | .softReset _ _ | .start _ | .runningEntry _ | .stop _
  | .hostMemoryWrite _ _ _ _ | .ignoredRegisterWrite _ _ _ | .scanWrite _ _ | .pendingWrite _ _ | .enableWrite _ _
  | .clockLoRead _ | .txInhibitAssert _ | .txInhibitRelease _ | .napEnd _ | .slowTimerExpiry _ | .wakingEnd _ => false
  | _ => true

end Sys2Proof.Machine
end

