-- ==== Sys2Proof/Certificates/Slice0/Obligations.lean ====
section
/-! DEFINITION. The statements about the model. In each, `u` is the state that a command finds: the given state after the
time that the command carries (notes/assumptions/1.md). -/

open Sys2Proof Sys2Proof.Machine

/-! ### The step, the queue and the kinds of commands -/

/-- A step runs the command at the front of the queue on the state with the queue's rest. -/
def Obligations.StepRunsFrontCommand : Prop :=
  ∀ (c : Instr) (q : List Instr) (s : State),
    step { s with pending := c :: q } = exec c { s with pending := q }

/-- With no command waiting the running clock ticks: 26 reference cycles make a microsecond, and in SLEEP the slow timer
counts toward its target (R17, R174; that an empty queue ticks is the model's choice, notes/assumptions/4.md). -/
def Obligations.EmptyQueueTicks : Prop :=
  ∀ s : State, s.pending = [] →
    (s.pins.resetHeld = true → step s = .next s) ∧
    (s.pins.resetHeld = false → s.pwc.state = .sleep →
      step s = .next { s with pwc := { s.pwc with timer := min s.pwc.target (s.pwc.timer + 1) } }) ∧
    (s.pins.resetHeld = false → s.pwc.state ≠ .sleep → s.tmu.refCycles < 25 →
      step s = .next { s with tmu := { s.tmu with refCycles := s.tmu.refCycles + 1 } }) ∧
    (s.pins.resetHeld = false → s.pwc.state ≠ .sleep → 25 ≤ s.tmu.refCycles → s.tmu.localTime + 1 < 2 ^ 48 →
      step s = .next { s with tmu := { s.tmu with refCycles := 0, localTime := s.tmu.localTime + 1 } })

/-- Every command answers a next state and leaves the queue as it finds it. -/
def Obligations.EveryCommandAnswersNext : Prop :=
  ∀ (c : Instr) (s : State), ∃ t, exec c s = .next t ∧ t.pending = s.pending

/-- A command of the blocks that comes while they do not work (not RUNNING, SLEEP, WAKING, RESET asserted) lets its time
pass and changes nothing (R169, R186; notes/assumptions/3.md and 26.md). -/
def Obligations.BlocksActOnlyWhileTheyWork : Prop :=
  ∀ (c : Instr) (s : State), isBlockCommand c = true → (s.advance (delay c)).working = false →
    exec c s = .next (s.advance (delay c))

/-- The frame of the blocks' commands: what the host wrote, the registers it writes, the pins, the run state, the queue and
local time stand as the command finds them; the scan-pending mask and the fault record too, but for a scan take. -/
def Obligations.BlockCommandsKeepHostSide : Prop :=
  ∀ (c : Instr) (s t : State), isBlockCommand c = true → exec c s = .next t →
    (∀ a : Nat, memRead t.exm.mem a = memRead s.exm.mem a) ∧ t.exm.mem = s.exm.mem ∧
    t.exm.run = s.exm.run ∧ t.exm.badSetup = s.exm.badSetup ∧ t.exm.enable = s.exm.enable ∧ t.exm.latch = s.exm.latch ∧
    t.exm.readData = s.exm.readData ∧ t.exm.heldStop = s.exm.heldStop ∧ t.pins = s.pins ∧ t.pending = s.pending ∧
    t.now = (s.advance (delay c)).now ∧ t.pwc.permit = s.pwc.permit ∧ t.pwc.maxSleep = s.pwc.maxSleep ∧
    t.rpl.inhibit = s.rpl.inhibit ∧
    (isTake c = false → t.exm.scan = s.exm.scan ∧ t.exm.fault = s.exm.fault)

/-! ### Invariants -/

/-- The part right after a reset meets every invariant. -/
def Obligations.ResetMeetsInvariants : Prop :=
  State.reset.memOk = true ∧ State.reset.planOk = true ∧ State.reset.powerOk = true ∧ State.reset.oneCallOk = true ∧
    State.reset.driftOk = true ∧ State.reset.sleepOk = true ∧ State.reset.marksOk = true ∧ State.reset.serviceOk = true ∧
    State.reset.targetOk = true

/-- Every step keeps host-written memory in its canonical form, with bytes of host-written words alone. -/
def Obligations.StepKeepsMemory : Prop :=
  ∀ s t : State, s.memOk = true → step s = .next t → t.memOk = true

/-- Two occupancies conflict exactly when they overlap, or are on different channels with less than 100 µs from the end of
the earlier to the start of the later; and every step keeps the plan list free of conflicts and within 32 entries. -/
def Obligations.PlanListIsConflictFree : Prop :=
  (∀ o n : Occ, o.start < o.stop → n.start < n.stop →
    (o.conflicts n = true ↔
      (o.start < n.stop ∧ n.start < o.stop) ∨
      (o.channel ≠ n.channel ∧
        ((o.stop ≤ n.start ∧ n.start - o.stop < 100) ∨ (n.stop ≤ o.start ∧ o.start - n.stop < 100))))) ∧
  (∀ s t : State, s.planOk = true → step s = .next t → t.planOk = true)

/-- Every step keeps at most one call context of the part radio-holding. With it, every step keeps a search pass to a SEARCHING
subscription, a radio-holding call to a CONNECTED or MOVING subscription of a RUNNING part, and the deferred requests to a
RUNNING part and to roles other than TARGET; and it keeps a subscription's TARGET users to one at most, held only while the part
is RUNNING, its handover machine is in ACQUIRE or ARRIVE and it is CONNECTED or MOVING. -/
def Obligations.StepKeepsOneCall : Prop :=
  (∀ s t : State, s.oneCallOk = true → step s = .next t → t.oneCallOk = true) ∧
  (∀ s t : State, s.oneCallOk = true → s.serviceOk = true → s.targetOk = true → step s = .next t →
    t.serviceOk = true ∧ t.targetOk = true)

/-- Every step keeps the part in RUN unless it is RUNNING, and out of SLEEP unless every SLEEP condition holds and no limit waits
to be acted on: four missed windows or a fail run of 8 of a CAMPED subscription, a fail run of 100 of a CONNECTED one, four
misses of a LOCKED context, 50 of one that follows its cell or a frame too far beyond its anchor, and a head that has failed
four attempts or been restarted four times (that the decision waits for the limit's own command is the model's reading,
notes/assumptions/95.md). -/
def Obligations.StepKeepsSleepQuiet : Prop :=
  ∀ s t : State, s.powerOk = true → s.sleepOk = true → step s = .next t → t.powerOk = true ∧ t.sleepOk = true

/-- Every step leaves clear the marks that live within one step. -/
def Obligations.StepKeepsMarks : Prop :=
  ∀ s t : State, s.marksOk = true → step s = .next t → t.marksOk = true

/-! ### Resets, START, STOP and the host port (chapter 11) -/

/-- Power-on, the RESET pin and SOFTRESET put the whole part in its reset state, in any state and any power state; the pins
stand as they are driven, and the release of the RESET pin changes nothing else (the pins and the queue are the model's,
notes/assumptions/24.md). What a reset leaves: every word of exchange memory 0, STOPPED with setup result OK, PENDING, ENABLE
and the scan-pending mask 0, ATTN released, the clock latch, local time and the drift estimate 0, the power state RUN, and
the blocks idle. -/
def Obligations.ResetCommandsResetThePart : Prop :=
  (∀ (s : State) (dt : Nat),
     exec (.powerOn dt) s = .next { State.reset with pins := s.pins, pending := s.pending } ∧
     exec (.resetPinAssert dt) s =
       .next { State.reset with pins := { s.pins with resetHeld := true }, pending := s.pending } ∧
     (s.pins.resetHeld = true →
       exec (.resetPinRelease dt) s = .next { s with pins := { s.pins with resetHeld := false } }) ∧
     (∀ b, s.pins.resetHeld = false →
       exec (.softReset dt b) s = .next { State.reset with pins := s.pins, pending := s.pending })) ∧
  ((∀ w, State.reset.readWord w = 0) ∧ State.reset.controlWord = 0 ∧ State.reset.exm.attn = 0 ∧
     State.reset.exm.enable = 0 ∧ State.reset.attnDriven = false ∧ State.reset.exm.scan = 0 ∧ State.reset.clockHi = 0 ∧
     State.reset.now = 0 ∧ State.reset.pwc.drift = 0 ∧ State.reset.pwc.state = .run ∧
     State.reset.rpl.plan = [] ∧ State.reset.tmu.deferred = [] ∧ (∀ c, (State.reset.ctx c).state = .free) ∧
     (∀ x, (State.reset.sub x).state = .off) ∧ (∀ x, (State.reset.machine x).state = .idle) ∧
     (∀ k, (State.reset.call k).part.state = .free) ∧ (∀ i, (State.reset.slot i).state = .empty) ∧
     (∀ r : Fin 4, (State.reset.txu.reasm[r]).state = .idle))

/-- A stopped part stays stopped under every command but START. -/
def Obligations.StoppedUntilStart : Prop :=
  ∀ (c : Instr) (s t : State), s.exm.run = .stopped → (∀ dt, c ≠ .start dt) → exec c s = .next t → t.exm.run = .stopped

/-- START reads the setup record: a version other than 1 leaves the part STOPPED with BAD_VERSION and changes nothing else;
with version 1 the part is STARTING, the permit and max sleep are held, and each block has its start values. Every cell record
is initialised and then taken from the host half: NEIGHBOUR with the key read where it is in use, NONE elsewhere and in the
guests, no sample, no dwell, no mark, no probe pending, and both taken stamps equal to the host's. -/
def Obligations.StartTakesSetupRecord : Prop :=
  ∀ (s : State) (dt : Nat), s.pins.resetHeld = false → s.exm.run = .stopped →
    (s.setupVersion ≠ 1 →
      exec (.start dt) s = .next { s.advance dt with exm := { (s.advance dt).exm with badSetup := true } }) ∧
    (s.setupVersion = 1 → ∃ t, exec (.start dt) s = .next t ∧
      t.exm.run = .starting ∧ t.exm.badSetup = false ∧ t.pwc.permit = s.setupPermit ∧
      t.pwc.maxSleep = s.setupMaxSleep ∧ t.exm.mem = s.exm.mem ∧ t.exm.enable = s.exm.enable ∧
      t.exm.latch = s.exm.latch ∧ t.exm.fault = s.exm.fault ∧ t.pwc.drift = s.pwc.drift ∧
      t.scanSet .subs = false ∧ t.scanSet .cells = false ∧
      (∀ x, t.set x = s.readSettings x ∧ (t.sub x).state = .off ∧ (t.sub x).lending = 0 ∧ (t.sub x).history = [] ∧
        (t.machine x).state = .idle ∧ t.side x = SendSide.reset) ∧
      t.clu.nextRef = ⟨0, 0⟩ ∧ (∀ r : Fin 4, t.txu.reasm[r] = Reasm.idle) ∧
      (∀ (x : Sub) (r : Fin 18), r.val < 16 →
        (t.cell x r).role = (if (s.readCell x r).inUse then CellRole.neighbour else CellRole.none) ∧
        ((s.readCell x r).inUse = true → (t.cell x r).key = (s.readCell x r).key) ∧
        (t.cell x r).offset = (s.readCell x r).offset ∧ (t.cell x r).weakTaken = (s.readCell x r).weak ∧
        (t.cell x r).probeTaken = (s.readCell x r).probe ∧ (t.cell x r).probe = none) ∧
      (∀ (x : Sub) (r : Fin 18), (t.cell x r).count = 0 ∧ (t.cell x r).dwell = 0 ∧ (t.cell x r).failRun = 0 ∧
        (t.cell x r).weakLive = false ∧ (t.cell x r).weakSeen = false ∧ (t.cell x r).barredUntil = 0 ∧
        (t.cell x r).quietUntil = 0 ∧ (t.cell x r).syncRejects = 0 ∧ (t.cell x r).probeLevel = none ∧
        (16 ≤ r.val → (t.cell x r).role = CellRole.none)) ∧
      (∀ x, (t.cmu.get x).pointer = 0))

/-- At the entry to RUNNING every held scan is taken, and TXINHIBIT is sampled: the settings, the host records, the request and
release stamps and the fault-ack stamp of a scanned area are read as they stand. With no scan held, each enabled subscription
that is OFF goes to SEARCHING with cause ENABLED where it has a record to try, no request being deferred before the part is
RUNNING (StepKeepsOneCall), and on to LOST with cause NO_CELLS for 30 s where it has none. That the searches come before
the held scans, and these before the line, is the model's order (notes/assumptions/22.md). -/
def Obligations.RunningEntryStartsTheBlocks : Prop :=
  ∀ (s u : State) (dt : Nat), u = s.advance dt → s.pins.resetHeld = false → s.exm.run = .starting →
    ∃ t, exec (.runningEntry dt) s = .next t ∧ t.exm.run = .running ∧ t.exm.scan = 0 ∧
      t.rpl.inhibit = s.pins.txInhibit ∧ t.exm.mem = s.exm.mem ∧ t.pins = s.pins ∧
      (u.scanSet .subs = true → ∀ x, t.set x = u.readSettings x) ∧
      (u.scanSet .cells = true → ∀ (x : Sub) (r : Fin 18), r.val < 16 →
        (t.cell x r).used = (u.readCell x r).inUse ∧ (t.cell x r).offset = (u.readCell x r).offset ∧
        ((u.readCell x r).inUse = true → (t.cell x r).key = (u.readCell x r).key)) ∧
      (u.scanSet .calls = true → ∀ k, (t.call k).part.taken = u.callStamp k ∧ (t.call k).notify = u.callNotify k) ∧
      (u.scanSet .outbox = true → ∀ i, (t.slot i).taken = u.outStamp i ∧ (t.slot i).notify = u.outNotify i) ∧
      (u.scanSet .inbox = true → ∀ i : Fin 8, (t.txu.inbox[i]).release = u.inRelease i) ∧
      (u.scanSet .fault = true → u.exm.fault.held = true → u.faultAck = u.exm.fault.stamp → t.exm.fault.held = false) ∧
      (s.exm.scan = 0 → ∀ x, (s.set x).enable = true → (s.sub x).state = .off →
        (u.tmu.deferred = [] → (∃ r ∈ hostRecs, u.tryable x r = true) →
          (t.sub x).state = .searching ∧ (t.sub x).cause = .enabled ∧ (t.sbc.get x).search.isSome = true) ∧
        ((∀ r ∈ hostRecs, u.tryable x r = false) →
          (t.sub x).state = .lost ∧ (t.sub x).cause = .noCells ∧
          (t.sbc.get x).lostRetry = some (u.now + 30000000)))

/-- STOP, taken in RUN or NAP, settles every block and leaves the part STOPPED in RUN, with what the host wrote, ENABLE, the
scan-pending mask, the fault record and the link status as they stand. A call that was radio-holding or RINGING is ENDED with
cause STOPPED; every slot of a send queue, one with a withdraw pending included, is FAILED with cause STOPPED and its final
time (the model's reading: the STOP row of R160 is taken over the segment that STOP itself ends ABORTED, notes/assumptions/31.md,
and a fourth attempt that has failed by then is still waiting for its own command, notes/assumptions/2.md); every cell record is kept, a pending probe being completed with NONE. While STOPPED it has no effect; in SLEEP and WAKING
it is held, and in SLEEP it wakes the part. -/
def Obligations.StopSettlesTheBlocks : Prop :=
  ∀ (s : State) (dt : Nat), s.pins.resetHeld = false →
    (s.exm.run = .stopped → exec (.stop dt) s = .next (s.advance dt)) ∧
    (s.exm.run ≠ .stopped → s.pwc.state = .run ∨ s.pwc.state = .nap → ∃ t, exec (.stop dt) s = .next t ∧
      t.exm.run = .stopped ∧ t.pwc.state = .run ∧ t.rpl.plan = [] ∧ t.tmu.deferred = [] ∧
      (∀ c, (t.ctx c).state = .free ∧ (t.ctx c).hold = none) ∧
      (∀ x, (t.sub x).state = .off ∧ (t.sub x).listenEnd = none ∧ (t.side x).queue = [] ∧
        (t.machine x).state = .idle ∧ (t.mbu.get x).inHand = none) ∧
      (∀ k, radioHolding (t.call k).part.state = false ∧ (t.call k).part.state ≠ .ringing) ∧
      (∀ k, if radioHolding (s.call k).part.state = true ∨ (s.call k).part.state = .ringing
        then (t.call k).part.state = .ended ∧ (t.call k).part.cause = .stopped
        else (t.call k).part.state = (s.call k).part.state ∧ (t.call k).part.cause = (s.call k).part.cause) ∧
      (∀ (x : Sub) (i : Fin 8), i ∈ (s.side x).queue →
        (t.slot i).state = .failed ∧ (t.slot i).cause = .stopped ∧ (t.slot i).withdraw = false ∧
        (t.slot i).final = (s.advance dt).now) ∧
      (∀ (x : Sub) (r : Fin 18), t.cell x r = match (if r.val < 16 then (s.cell x r).probe else none) with
        | some p => { s.cell x r with probeLevel := none, probeTaken := p, probe := none, change := (s.cell x r).change + 1 }
        | none => s.cell x r) ∧
      (∀ x, (t.cmu.get x).pointer = (s.cmu.get x).pointer) ∧
      (∀ r : Fin 4, t.txu.reasm[r] = Reasm.idle) ∧
      t.exm.mem = s.exm.mem ∧ t.exm.enable = s.exm.enable ∧ t.exm.scan = s.exm.scan ∧ t.exm.fault = s.exm.fault ∧
      t.exm.badSetup = s.exm.badSetup ∧ t.exm.latch = s.exm.latch ∧ t.rpl.totalSilent = s.rpl.totalSilent ∧
      t.rpl.runSilent = s.rpl.runSilent ∧ t.pwc.drift = s.pwc.drift) ∧
    (s.exm.run ≠ .stopped → s.pwc.state = .waking →
      exec (.stop dt) s = .next { s.advance dt with exm := { (s.advance dt).exm with heldStop := true } }) ∧
    (s.exm.run ≠ .stopped → s.pwc.state = .sleep → ∃ t, exec (.stop dt) s = .next t ∧
      t.exm.heldStop = true ∧ t.pwc.state = .waking ∧ t.exm.run = s.exm.run ∧ t.exm.mem = s.exm.mem)

/-- A host write to a host-written word replaces the enabled bytes, keeps every other byte of exchange memory, and changes
nothing else; while the RESET pin is asserted it is ignored. -/
def Obligations.HostWriteReplacesEnabledBytes : Prop :=
  ∀ (s : State) (dt : Nat) (word : BitVec 14) (lanes : BitVec 4) (data : Word), s.memOk = true →
    (s.pins.resetHeld = true → exec (.hostMemoryWrite dt word lanes data) s = .next s) ∧
    (s.pins.resetHeld = false → hostWritten (4 * word.toNat) = true →
      ∃ t, exec (.hostMemoryWrite dt word lanes data) s = .next t ∧
        t = { s.advance dt with exm := { s.exm with mem := t.exm.mem } } ∧
        ∀ a : Nat, memRead t.exm.mem a =
          if 4 * word.toNat ≤ a ∧ a < 4 * word.toNat + 4 ∧ lanes.getLsbD (a - 4 * word.toNat) = true
          then wordByte data (a - 4 * word.toNat) else memRead s.exm.mem a)

/-- A host write to a part-written or unassigned word leaves exchange memory unchanged: it is captured in the fault record
while none is held, counted while one is, and not written again once the count is full. -/
def Obligations.DroppedWriteIsRecorded : Prop :=
  ∀ (s u : State) (dt : Nat) (word : BitVec 14) (lanes : BitVec 4) (data : Word), u = s.advance dt →
    s.pins.resetHeld = false → hostWritten (4 * word.toNat) = false → lanes ≠ 0 →
    (s.exm.fault.held = false → exec (.hostMemoryWrite dt word lanes data) s = .next { u with exm := { u.exm with
      attn := u.exm.attn ||| areaMask .fault
      fault := { held := true, stamp := u.exm.fault.stamp + 1, offset := BitVec.ofNat 16 (4 * word.toNat),
                 area := areaOf (4 * word.toNat), lanes := lanes, time := u.now, drops := u.exm.fault.drops,
                 change := u.exm.fault.change + 1 } } }) ∧
    (s.exm.fault.held = true → s.exm.fault.drops < 65535 →
      exec (.hostMemoryWrite dt word lanes data) s = .next { u with exm := { u.exm with
        attn := u.exm.attn ||| areaMask .fault
        fault := { u.exm.fault with drops := u.exm.fault.drops + 1, change := u.exm.fault.change + 1 } } }) ∧
    (s.exm.fault.held = true → 65535 ≤ s.exm.fault.drops → exec (.hostMemoryWrite dt word lanes data) s = .next u)

/-- The register writes, by their enabled byte lanes (lane 0 carries bits 7..0, lane 1 bit 8): PENDING clears each bit written as
1, ENABLE takes the mask's bits of the enabled lanes and keeps the others, and an ignored register write changes nothing. A whole
write of ENABLE takes the mask written. That the byte lanes of a register write act so is the model's reading
(notes/assumptions/25.md). -/
def Obligations.RegisterWrites : Prop :=
  ∀ (s u : State) (dt : Nat) (word : BitVec 15) (lanes : BitVec 4) (data : Word), u = s.advance dt →
    s.pins.resetHeld = false →
    (∃ t, exec (.pendingWrite dt ⟨lanes, data⟩) s = .next t ∧ t = { u with exm := { u.exm with attn := t.exm.attn } } ∧
      ∀ i : Nat, t.exm.attn.getLsbD i =
        (u.exm.attn.getLsbD i && !(decide (i < 9) && lanes.getLsbD (i / 8) && data.getLsbD i))) ∧
    (∃ t, exec (.enableWrite dt ⟨lanes, data⟩) s = .next t ∧ t = { u with exm := { u.exm with enable := t.exm.enable } } ∧
      ∀ i : Nat, i < 9 → t.exm.enable.getLsbD i =
        if lanes.getLsbD (i / 8) then data.getLsbD i else u.exm.enable.getLsbD i) ∧
    exec (.pendingWrite dt ⟨15, data⟩) s =
      .next { u with exm := { u.exm with attn := u.exm.attn &&& ~~~ (data.truncate 9) } } ∧
    exec (.enableWrite dt ⟨15, data⟩) s = .next { u with exm := { u.exm with enable := data.truncate 9 } } ∧
    exec (.ignoredRegisterWrite dt word ⟨lanes, data⟩) s = .next u

/-- A SCAN write adds the 1 bits of its enabled byte lanes to the scan-pending mask, the whole mask where lanes 0 and 1 are
enabled; in SLEEP it wakes the part. The lanes of a register write are the model's reading (notes/assumptions/25.md). -/
def Obligations.ScanWriteAddsToTheMask : Prop :=
  ∀ (s u : State) (dt : Nat) (lanes : BitVec 4) (data : Word), u = s.advance dt → s.pins.resetHeld = false → lanes ≠ 0 →
    (s.pwc.state ≠ .sleep → ∃ t, exec (.scanWrite dt ⟨lanes, data⟩) s = .next t ∧
      t = { u with exm := { u.exm with scan := t.exm.scan } } ∧
      (∀ i : Nat, i < 9 → t.exm.scan.getLsbD i = (u.exm.scan.getLsbD i || (lanes.getLsbD (i / 8) && data.getLsbD i))) ∧
      (lanes.getLsbD 0 = true → lanes.getLsbD 1 = true → t.exm.scan = u.exm.scan ||| data.truncate 9)) ∧
    (s.pwc.state = .sleep → ∃ t, exec (.scanWrite dt ⟨lanes, data⟩) s = .next t ∧
      (∀ i : Nat, i < 9 → t.exm.scan.getLsbD i = (u.exm.scan.getLsbD i || (lanes.getLsbD (i / 8) && data.getLsbD i))) ∧
      (lanes.getLsbD 0 = true → lanes.getLsbD 1 = true → t.exm.scan = u.exm.scan ||| data.truncate 9) ∧
      t.pwc.state = .waking ∧ t.exm.mem = s.exm.mem ∧ t.pwc.lastSleep = elapsedTime u.pwc.timer u.pwc.usedDrift)

/-- A read of CLOCK_LO returns the low 32 bits of local time and copies the upper 16 into the clock latch, which CLOCK_HI
returns; local time is held in SLEEP; the latch is 0 after each reset and stands through START and STOP; IDENT. -/
def Obligations.ClockReads : Prop :=
  (∀ (s u : State) (dt : Nat), u = s.advance dt → s.pins.resetHeld = false →
    (exec (.clockLoRead dt) s = .next { u with exm := { u.exm with
      readData := BitVec.ofNat 32 (u.now % 2 ^ 32), latch := BitVec.ofNat 16 (u.now / 2 ^ 32 % 2 ^ 16) } }) ∧
    (s.pwc.state = .sleep → u.now = s.now) ∧
    (s.pwc.state ≠ .sleep → s.now + dt < 2 ^ 48 → u.now = s.now + dt) ∧
    s.readPort 0x4006 = BitVec.ofNat 32 s.exm.latch.toNat) ∧
  (∀ (s t : State) (dt : Nat) (b : Bool),
    (exec (.powerOn dt) s = .next t ∨ exec (.resetPinAssert dt) s = .next t ∨
      (s.pins.resetHeld = false ∧ exec (.softReset dt b) s = .next t)) → t.exm.latch = 0) ∧
  (∀ (s t : State) (dt : Nat),
    exec (.start dt) s = .next t ∨ exec (.stop dt) s = .next t → t.exm.latch = s.exm.latch) ∧
  (∀ s : State, s.readPort 0x4000 = 0x03400001)

/-- TXINHIBIT taken as asserted leaves no transmit occupancy in the plan list; where the blocks do not work, or the line is
already taken as asserted, only the pin moves. -/
def Obligations.TxInhibitAssertEndsTransmits : Prop :=
  ∀ (s u : State) (dt : Nat), u = s.advance dt →
    (u.working = true → u.rpl.inhibit = false → ∃ t, exec (.txInhibitAssert dt) s = .next t ∧
      t.pins.txInhibit = true ∧ t.rpl.inhibit = true ∧ (∀ o ∈ t.rpl.plan, isTransmit o.kind = false) ∧
      t.exm.mem = s.exm.mem ∧ t.exm.scan = s.exm.scan ∧ t.exm.run = s.exm.run) ∧
    (u.working = false ∨ u.rpl.inhibit = true →
      exec (.txInhibitAssert dt) s = .next { u with pins := { u.pins with txInhibit := true } })

/-- TXINHIBIT taken as released gives each LOCKED or HOLDOVER context an inhibit hold from the frame running; where the
blocks do not work, or the line is already taken as released, only the pin moves. -/
def Obligations.TxInhibitReleaseHolds : Prop :=
  ∀ (s u : State) (dt : Nat), u = s.advance dt →
    (u.working = true → u.rpl.inhibit = true → u.marksOk = true → ∃ t, exec (.txInhibitRelease dt) s = .next t ∧
      t.pins.txInhibit = false ∧ t.rpl.inhibit = false ∧ t.rpl.plan = u.rpl.plan ∧
      (∀ c, (t.ctx c).hold = if (u.ctx c).follows
        then some { release := (u.ctx c).frameAt u.now, waiting := true } else (u.ctx c).hold) ∧
      t.sbc = u.sbc ∧ t.cmu = u.cmu ∧ t.mbu = u.mbu ∧ t.clu = u.clu ∧ t.txu = u.txu ∧ t.exm = u.exm) ∧
    (u.working = false ∨ u.rpl.inhibit = false →
      exec (.txInhibitRelease dt) s = .next { u with pins := { u.pins with txInhibit := false } })

/-! ### Scan takes -/

/-- A take of SUBS clears the bit and takes both host halves as they stand. -/
def Obligations.SubsTakeReadsSettings : Prop :=
  ∀ (s u : State) (dt : Nat), u = s.advance dt → u.working = true → u.scanSet .subs = true →
    ∃ t, exec (.subsScanTake dt) s = .next t ∧ t.exm.scan = u.exm.scan &&& ~~~ (areaMask .subs) ∧
      (∀ x, t.set x = u.readSettings x) ∧ t.exm.mem = s.exm.mem ∧ t.exm.fault = s.exm.fault

/-- A take of CELLS clears the bit and leaves each host record in use or not, with its key and offset, as its host half
has it. -/
def Obligations.CellsTakeReadsRecords : Prop :=
  ∀ (s u : State) (dt : Nat), u = s.advance dt → u.working = true → u.scanSet .cells = true →
    ∃ t, exec (.cellsScanTake dt) s = .next t ∧ t.exm.scan = u.exm.scan &&& ~~~ (areaMask .cells) ∧
      t.exm.mem = s.exm.mem ∧
      ∀ (x : Sub) (r : Fin 18), r.val < 16 →
        (t.cell x r).used = (u.readCell x r).inUse ∧ (t.cell x r).offset = (u.readCell x r).offset ∧
        ((u.readCell x r).inUse = true → (t.cell x r).key = (u.readCell x r).key)

/-- A take of CALLS or OUTBOX clears the bit and takes every posted request: each taken stamp becomes the request stamp; a take
of INBOX clears the bit and reads every release stamp. -/
def Obligations.RequestTakes : Prop :=
  ((∀ (s u : State) (dt : Nat), u = s.advance dt → u.working = true → u.scanSet .calls = true →
      ∃ t, exec (.callsScanTake dt) s = .next t ∧ t.exm.scan = u.exm.scan &&& ~~~ (areaMask .calls) ∧
        t.exm.mem = s.exm.mem ∧
        ∀ k, (t.call k).part.taken = u.callStamp k ∧ (t.call k).notify = u.callNotify k) ∧
   (∀ (s u : State) (dt : Nat), u = s.advance dt → u.working = true → u.scanSet .outbox = true →
      ∃ t, exec (.outboxScanTake dt) s = .next t ∧ t.exm.scan = u.exm.scan &&& ~~~ (areaMask .outbox) ∧
        t.exm.mem = s.exm.mem ∧
        ∀ i, (t.slot i).taken = u.outStamp i ∧ (t.slot i).notify = u.outNotify i)) ∧
  (∀ (s u : State) (dt : Nat), u = s.advance dt → u.working = true → u.scanSet .inbox = true →
     ∃ t, exec (.inboxScanTake dt) s = .next t ∧ t.exm.scan = u.exm.scan &&& ~~~ (areaMask .inbox) ∧
       t.exm.mem = s.exm.mem ∧ ∀ i : Fin 8, (t.txu.inbox[i]).release = u.inRelease i)

/-- A take of FAULT clears a held record whose stamp is acknowledged, keeping the stamp and raising FAULT, and changes
nothing of the record otherwise; the next dropped write is then captured. START and STOP leave the record. -/
def Obligations.FaultTakeClears : Prop :=
  (∀ (s u : State) (dt : Nat), u = s.advance dt → u.working = true → u.scanSet .fault = true →
    ∃ t, exec (.faultScanTake dt) s = .next t ∧ t.exm.scan = u.exm.scan &&& ~~~ (areaMask .fault) ∧
      (u.exm.fault.held = true → u.faultAck = u.exm.fault.stamp →
        t.exm.fault = { held := false, stamp := u.exm.fault.stamp, offset := 0, area := none, lanes := 0, time := 0,
                        drops := 0, change := u.exm.fault.change + 1 } ∧
        t.exm.attn &&& areaMask .fault ≠ 0) ∧
      (u.exm.fault.held = false ∨ u.faultAck ≠ u.exm.fault.stamp → t.exm.fault = u.exm.fault) ∧
      t.rpl.totalSilent = u.rpl.totalSilent ∧ t.rpl.runSilent = u.rpl.runSilent ∧ t.exm.mem = s.exm.mem) ∧
  (∀ (s : State) (off : Nat) (lanes : BitVec 4), s.exm.fault.held = true → s.exm.fault.drops < 65535 →
    (s.dropWrite off lanes).exm.fault.drops = s.exm.fault.drops + 1) ∧
  (∀ (s : State) (off : Nat) (lanes : BitVec 4), s.exm.fault.held = false →
    (s.dropWrite off lanes).exm.fault.held = true ∧ (s.dropWrite off lanes).exm.fault.stamp = s.exm.fault.stamp + 1) ∧
  (∀ (s t : State) (dt : Nat),
    exec (.start dt) s = .next t ∨ exec (.stop dt) s = .next t → t.exm.fault = s.exm.fault)

/-- A take of SETUP, POWER or VOICE clears the bit and has no further effect. -/
def Obligations.NoEffectTakeClearsItsBit : Prop :=
  ∀ (s u : State) (dt : Nat) (a : Area), u = s.advance dt → u.working = true → u.marksOk = true →
    a = .setup ∨ a = .power ∨ a = .voice → u.scanSet a = true →
    ∃ t, exec (.noEffectScanTake dt a) s = .next t ∧
      t.exm = { u.exm with scan := u.exm.scan &&& ~~~ (areaMask a) } ∧ t.rpl = u.rpl ∧ t.sbc = u.sbc ∧ t.cmu = u.cmu ∧
      t.mbu = u.mbu ∧ t.clu = u.clu ∧ t.txu = u.txu

/-! ### The radio link port -/

/-- The command of the first GRANTED occupancy goes out once its issue time has come, after IDLE naming all if it is the
first since a reset, and the occupancy is STARTED. -/
def Obligations.CommandIssueStartsTheOccupancy : Prop :=
  ∀ (s u : State) (dt : Nat) (h : Handle) (o : Occ), u = s.advance dt → u.working = true → u.marksOk = true →
    u.rpl.plan.find? (fun p => !p.started) = some o → o.handle = h → o.issue ≤ (u.now : Int) →
    ∃ t, exec (.commandIssue dt h) s = .next t ∧
      t.rpl = { u.rpl with
        sent := o.command :: (if u.rpl.idleDue then .idleAll :: u.rpl.sent else u.rpl.sent)
        idleDue := false
        plan := u.rpl.plan.map fun p => if p.handle = h then { p with started := true } else p } ∧
      t.sbc = u.sbc ∧ t.cmu = u.cmu ∧ t.mbu = u.mbu ∧ t.clu = u.clu ∧ t.txu = u.txu

/-- A STARTED occupancy without its report 500 µs after its end leaves the list, and both counts of the link status rise. -/
def Obligations.SilentOccupancyCounts : Prop :=
  ∀ (s u : State) (dt : Nat) (h : Handle) (o : Occ), u = s.advance dt → u.working = true →
    u.rpl.plan.find? (fun p => p.handle == h && p.started) = some o → o.stop + 500 ≤ (u.now : Int) →
    ∃ t, exec (.occupancySilent dt h) s = .next t ∧
      t.rpl.totalSilent = satInc 65535 u.rpl.totalSilent ∧ t.rpl.runSilent = satInc 65535 u.rpl.runSilent ∧
      (∀ p ∈ t.rpl.plan, p.handle = h → p.started = false) ∧ t.exm.mem = s.exm.mem

/-- A BEACON report in time ends its STARTED beacon listen DONE: the occupancy leaves the list and the consecutive SILENT
count returns to 0. An accepted beacon of its frame inside the capture window tracks its context, where every user of the
context is a SERVING user and there is one. By its deviation `e` from the prediction `p`: with the wake mark set the context
is re-anchored to the capture time (R33); with |e| at most 8 the anchor moves by trunc(e / 2) and the streak is cleared;
beyond that, the third deviation in a row of one sign re-anchors to the capture time and clears the streak, and any other
leaves the anchor at the prediction and counts in the streak, from 1 where the sign has changed (R25). -/
def Obligations.BeaconReportTracksTheCell : Prop :=
  (∀ (s u : State) (dt : Nat) (h : Handle) (b : Beacon) (o : Occ), u = s.advance dt → u.working = true →
     u.rpl.plan.find? (fun p => p.handle == h && p.started) = some o → hearsBeacon o.kind = true →
     (u.now : Int) ≤ o.stop + 500 →
     ∃ t, exec (.beaconReport dt h b) s = .next t ∧ t.rpl.runSilent = 0 ∧ t.rpl.totalSilent = u.rpl.totalSilent ∧
       (∀ p ∈ t.rpl.plan, p.handle = h → p.started = false) ∧ t.exm.mem = s.exm.mem) ∧
  (∀ (s u : State) (dt : Nat) (h : Handle) (b : Beacon) (o : Occ), u = s.advance dt → u.working = true →
     u.marksOk = true → u.rpl.plan.find? (fun p => p.handle == h && p.started) = some o → hearsBeacon o.kind = true →
     (u.now : Int) ≤ o.stop + 500 → u.routes o = true → o.isGrid = false →
     (u.ctx o.ctx).follows = true → (u.ctx o.ctx).users ≠ [] → (∀ w ∈ (u.ctx o.ctx).users, w.role = .serving) →
     b.mismatch ≤ 2 → b.code = (u.ctx o.ctx).key.code → b.frame = o.frame →
     (deviation (u.ctx o.ctx) b).natAbs ≤ (u.ctx o.ctx).window →
     ∃ t, exec (.beaconReport dt h b) s = .next t ∧
       (t.ctx o.ctx).anchorFrame = b.frame ∧ (t.ctx o.ctx).misses = 0 ∧ (t.ctx o.ctx).state = .locked ∧
       (t.ctx o.ctx).halfWindow = 200 ∧
       (t.ctx o.ctx).anchorTime = ((u.ctx o.ctx).track b.frame (deviation (u.ctx o.ctx) b)).anchorTime ∧
       ∀ (p : Nat) (e : Int) (n : Nat), p = (u.ctx o.ctx).predict b.frame → e = (b.capture : Int) - p →
         n = (if (u.ctx o.ctx).streak ≠ 0 ∧ (u.ctx o.ctx).streakNeg = decide (e < 0) then (u.ctx o.ctx).streak + 1 else 1) →
         ((u.ctx o.ctx).wakeMark = true →
           (t.ctx o.ctx).anchorTime = b.capture ∧ (t.ctx o.ctx).streak = 0 ∧ (t.ctx o.ctx).wakeMark = false) ∧
         ((u.ctx o.ctx).wakeMark = false → e.natAbs ≤ 8 →
           ((t.ctx o.ctx).anchorTime : Int) = (p : Int) + e.tdiv 2 ∧ (t.ctx o.ctx).streak = 0) ∧
         ((u.ctx o.ctx).wakeMark = false → 8 < e.natAbs → n = 3 →
           (t.ctx o.ctx).anchorTime = b.capture ∧ (t.ctx o.ctx).streak = 0) ∧
         ((u.ctx o.ctx).wakeMark = false → 8 < e.natAbs → n ≠ 3 →
           (t.ctx o.ctx).anchorTime = p ∧ (t.ctx o.ctx).streak = n ∧ (t.ctx o.ctx).streakNeg = decide (e < 0)))

/-- A NOTHING report for a beacon listen of a LOCKED or HOLDOVER context counts a miss of the context and ends the listen. -/
def Obligations.NothingReportCountsAMiss : Prop :=
  ∀ (s u : State) (dt : Nat) (h : Handle) (o : Occ), u = s.advance dt → u.working = true → u.marksOk = true →
    u.rpl.plan.find? (fun p => p.handle == h && p.started) = some o → hearsBeacon o.kind = true →
    (u.now : Int) ≤ o.stop + 500 → u.routes o = true → o.isGrid = false → (u.ctx o.ctx).follows = true →
    ∃ t, exec (.nothingReport dt h) s = .next t ∧
      (t.ctx o.ctx).misses = satInc 50 (u.ctx o.ctx).misses ∧ (t.ctx o.ctx).anchorTime = (u.ctx o.ctx).anchorTime ∧
      (t.ctx o.ctx).streak = (u.ctx o.ctx).streak ∧ t.rpl.runSilent = 0 ∧
      (∀ p ∈ t.rpl.plan, p.handle = h → p.started = false) ∧ t.cmu = u.cmu ∧ t.exm.mem = s.exm.mem

/-- The BLOCK report of a call's down slot settles the frame's downlink outcome: RECEIVED with the payload of a voice block
of at most 40 bytes, BAD for a block that did not decode. -/
def Obligations.BlockReportSettlesTheDownlink : Prop :=
  ∀ (s u : State) (dt : Nat) (h : Handle) (level : Nat) (o : Occ) (k : Fin 4), u = s.advance dt → u.working = true →
    u.marksOk = true → u.rpl.plan.find? (fun p => p.handle == h && p.started) = some o → o.kind = .rxVoice →
    o.call = some k → (u.now : Int) ≤ o.stop + 500 → u.routes o = true →
    (∀ payload : List Byte, payload.length ≤ 40 →
      ∃ t, exec (.blockReport dt h (some (.voice payload)) level) s = .next t ∧ t.rpl.runSilent = 0 ∧
        ∀ p ∈ (u.call k).pends, p.frame = o.frame →
          { p with outcome := some (.received, payload) } ∈ (t.call k).pends) ∧
    (∃ t, exec (.blockReport dt h none level) s = .next t ∧ t.rpl.runSilent = 0 ∧
      ∀ p ∈ (u.call k).pends, p.frame = o.frame → { p with outcome := some (.bad, []) } ∈ (t.call k).pends)

/-- The LEVEL report of a MEASURE of one subscription is a sample of the measured record, in one update. -/
def Obligations.LevelReportIsASample : Prop :=
  ∀ (s u : State) (dt : Nat) (h : Handle) (level : Nat) (o : Occ) (x : Sub) (k : Key) (r : Fin 18), u = s.advance dt →
    u.working = true → u.marksOk = true → u.rpl.plan.find? (fun p => p.handle == h && p.started) = some o →
    o.kind = .measure → o.content = .level k none → (u.now : Int) ≤ o.stop + 500 → u.routes o = true →
    o.asks x = true → o.asks (otherSub x) = false → u.recordFor x k = some r →
    ∃ t, exec (.levelReport dt h level) s = .next t ∧
      t.cell x r = { (u.cell x r).sampled (u.set x) (u.sub x).state false (u.sub x).evals (min 200 level) u.now with
        change := (u.cell x r).change + 1 } ∧
      (∀ q, q ≠ r → t.cell x q = u.cell x q) ∧ (∀ q, t.cell (otherSub x) q = u.cell (otherSub x) q) ∧
      t.exm.attn &&& areaMask .cells ≠ 0 ∧ t.exm.mem = s.exm.mem

/-- The SENT report of a voice frame writes SENT in the frame's uplink status entry and counts it, where the entry still
names the frame. -/
def Obligations.SentReportWritesTheEntry : Prop :=
  ∀ (s u : State) (dt : Nat) (h : Handle) (o : Occ) (x : Sub) (k : Fin 4) (tag : Tag) (payload : List Byte),
    u = s.advance dt → u.working = true → u.marksOk = true →
    u.rpl.plan.find? (fun p => p.handle == h && p.started) = some o → o.kind = .txVoice → o.call = some k →
    o.content = .send tag (.voice payload) → (u.now : Int) ≤ o.stop + 500 → o.asks x = true →
    o.asks (otherSub x) = false → ((u.call k).part.status[cellIndex o.frame]).frame = o.frame →
    ∃ t, exec (.sentReport dt h) s = .next t ∧
      (t.call k).part.status[cellIndex o.frame] = { frame := o.frame, outcome := .sent } ∧
      (t.call k).part.ups.sent = satInc 65535 (u.call k).part.ups.sent ∧ (t.call k).part.state = (u.call k).part.state ∧
      t.rpl.runSilent = 0 ∧ (∀ p ∈ t.rpl.plan, p.handle = h → p.started = false)

/-! ### The events of the timing contexts -/

/-- A planning event that is due records the frame it offers as the context's last planned frame; a CONTINUOUS context offers,
at the predicted start of its last planned frame, the frame after it; a WINDOWED event for the window of a CAMPED
subscription, alone in the context, is due 3,000 µs before the frame's predicted start. -/
def Obligations.PlanningEventsOfferFrames : Prop :=
  ((∀ (s u : State) (dt : Nat) (c : Fin 3) (f : Frame), u = s.advance dt → u.working = true → u.marksOk = true →
     u.tmu.deferred = [] → u.dueOffer c = some f →
     ∃ t, exec (.planningEvent dt c) s = .next t ∧ (t.ctx c).lastPlanned = some f ∧
       (t.ctx c).state = (u.ctx c).state ∧ (t.ctx c).anchorTime = (u.ctx c).anchorTime ∧
       (t.ctx c).anchorFrame = (u.ctx c).anchorFrame ∧ t.exm.mem = s.exm.mem) ∧
   (∀ (s : State) (c : Fin 3) (m : Frame), (s.ctx c).follows = true → (s.ctx c).continuous = true →
     (s.ctx c).first = none → (s.ctx c).lastPlanned = some m → (s.ctx c).tooFar (plusFrames m 1) = false →
     s.dueOffer c = if (s.ctx c).predict m ≤ s.now then some (plusFrames m 1) else none)) ∧
  ((∀ (s u : State) (dt : Nat) (c : Fin 3) (f : Frame), u = s.advance dt → u.working = true → u.marksOk = true →
     u.tmu.deferred = [] → u.dueWindowed c = some f →
     ∃ t, exec (.windowedPlanningEvent dt c) s = .next t ∧ (t.ctx c).lastPlanned = some f ∧
       (t.ctx c).state = (u.ctx c).state ∧ (t.ctx c).anchorTime = (u.ctx c).anchorTime ∧ t.exm.mem = s.exm.mem) ∧
   (∀ (s : State) (c : Fin 3) (x : Sub) (w : Frame), (s.ctx c).follows = true → (s.ctx c).continuous = false →
     (s.ctx c).first = none → (s.ctx c).users = [{ role := .serving, sub := x, deadline := none }] →
     (s.sub x).state = .camped → (s.sbc.get x).window = some w → ahead w (s.ctx c).lastFrame = true →
     (s.ctx c).tooFar w = false →
     s.dueWindowed c = if ((s.ctx c).predict w : Int) - 3000 ≤ (s.now : Int) then some w else none))

/-- A seek planning event moves to the next listen of the grid, and requests the listen of the event: 11,250 µs long, the
first 1,000 µs after the seek's entry and each later one at the end of the one before. -/
def Obligations.SeekEventRequestsTheListen : Prop :=
  ∀ (s u : State) (dt : Nat) (c : Fin 3) (j : Nat) (b : Nat), u = s.advance dt → u.working = true → u.marksOk = true →
    u.tmu.deferred = [] → (u.ctx c).state = .seek → (u.ctx c).listen = j →
    b = (u.ctx c).seekEntry + 1000 + 11250 * j →
    (if j = 0 then (u.ctx c).seekEntry else b - 11250) ≤ u.now →
    ∃ t, exec (.seekPlanningEvent dt c) s = .next t ∧ (t.ctx c).listen = j + 1 ∧ (t.ctx c).state = .seek ∧
      t.exm.mem = s.exm.mem ∧
      (u.rpl.plan = [] → u.now < b - 200 →
        (∃ w ∈ (u.ctx c).users, isSeek w.role = true ∧ ∃ d, w.deadline = some d ∧ b + 11250 ≤ d) →
        ∃ o ∈ t.rpl.plan, o.kind = .seek ∧ o.ctx = c ∧ o.start = (b : Int) ∧ o.stop = (b : Int) + 11250 ∧
          o.channel = (u.ctx c).key.channel)

/-- The frame base of a voice frame whose start has come is written as one update that raises CALLS. A downlink voice cell is
written once its outcome is known and the predicted end of its down slot has come, and its outcome is counted; VOICE and
CALLS are raised. That the end is the context's present prediction while it keeps its allocation, and the one made at the
planning event after it has gone, is the model's reading (notes/assumptions/33.md). -/
def Obligations.VoiceRecordsAreWritten : Prop :=
  (∀ (s u : State) (dt : Nat) (k : Fin 4) (c : Fin 3) (f : Frame) (l : List Frame), u = s.advance dt → u.working = true →
     u.marksOk = true → (u.call k).bases = f :: l → u.servingCtx (u.call k).part.owner = some c →
     (u.ctx c).startOf f ≤ u.now →
     ∃ t, exec (.frameBaseWrite dt k) s = .next t ∧
       (t.call k).part = { (u.call k).part with
         baseFrame := f, baseTime := (u.ctx c).startOf f, change := (u.call k).part.change + 1 } ∧
       (t.call k).bases = l ∧ t.exm.attn &&& areaMask .calls ≠ 0 ∧ t.rpl.plan = u.rpl.plan ∧ t.txu = u.txu) ∧
  (∀ (s u : State) (dt : Nat) (k : Fin 4) (f : Frame) (p : DownPending) (o : DownOutcome) (payload : List Byte),
     u = s.advance dt → u.working = true → u.marksOk = true →
     (u.call k).pends.find? (fun q => q.frame == f && u.downReady q) = some p → p.outcome = some (o, payload) →
     ∃ t, exec (.downlinkCellWrite dt k f) s = .next t ∧
       ((t.call k).cells[cellIndex f]).frame = f ∧ ((t.call k).cells[cellIndex f]).outcome = o ∧
       ((t.call k).cells[cellIndex f]).epoch = p.epoch ∧ ((t.call k).cells[cellIndex f]).length = payload.length ∧
       (p.slot ≠ 0 → ((t.call k).cells[cellIndex f]).time = u.downDue p) ∧
       (t.call k).part.downs = (u.call k).part.downs.add o ∧
       t.exm.attn &&& areaMask .voice ≠ 0 ∧ t.exm.attn &&& areaMask .calls ≠ 0)

/-- Four misses take a LOCKED context to HOLDOVER with a half-window of 1,000 µs, its prediction unchanged. -/
def Obligations.FourMissesGiveHoldover : Prop :=
  ∀ (s u : State) (dt : Nat) (c : Fin 3), u = s.advance dt → u.working = true → u.marksOk = true →
    (u.ctx c).state = .locked → 4 ≤ (u.ctx c).misses →
    ∃ t, exec (.holdoverEntry dt c) s = .next t ∧ (t.ctx c).state = .holdover ∧ (t.ctx c).halfWindow = 1000 ∧
      (t.ctx c).misses = (u.ctx c).misses ∧ (t.ctx c).users = (u.ctx c).users ∧
      (t.ctx c).anchorTime = (u.ctx c).anchorTime ∧ (t.ctx c).anchorFrame = (u.ctx c).anchorFrame ∧
      t.rpl = u.rpl ∧ t.sbc = u.sbc

/-- Fifty misses end a context: its allocation ends, and no subscription that it served keeps its serving cell. That a search
pass is held only while its subscription is SEARCHING is an invariant of every step (StepKeepsOneCall). -/
def Obligations.FiftyMissesLoseTheCell : Prop :=
  ∀ (s u : State) (dt : Nat) (c : Fin 3), u = s.advance dt → u.working = true → (u.ctx c).follows = true →
    50 ≤ (u.ctx c).misses → (∀ x, (u.sbc.get x).search.isSome = true → (u.sub x).state = .searching) →
    ∃ t, exec (.loss dt c) s = .next t ∧ (u.ctx c).alloc < (t.ctx c).alloc ∧
      ∀ w ∈ (u.ctx c).users, w.role = .serving →
        (u.sub w.sub).state = .camped ∨ (u.sub w.sub).state = .connected ∨ (u.sub w.sub).state = .moving →
        (t.sub w.sub).serving = none ∧ (t.sub w.sub).state ≠ .camped ∧ (t.sub w.sub).state ≠ .connected ∧
        (t.sub w.sub).state ≠ .moving

/-! ### Leaving service -/

/-- Four missed windows send a CAMPED subscription to SEARCHING with cause WINDOWS_MISSED, and a fail run of 8 with cause
FAIL_RUN, where it has a record to try, no request for a TARGET being deferred (StepKeepsOneCall); where it has none, the
search ends at once in LOST with cause NO_CELLS and a retry after 30 s. It has no serving cell then. -/
def Obligations.CampedFailuresSearch : Prop :=
  ∀ (s u : State) (dt : Nat) (x : Sub), u = s.advance dt → u.working = true → (u.sub x).state = .camped →
    (4 ≤ (u.sub x).missed → ∃ t, exec (.windowsMissed dt x) s = .next t ∧ (t.sub x).serving = none ∧
      (((t.sub x).state = .searching ∧ (t.sub x).cause = .windowsMissed) ∨ (t.sub x).state = .lost) ∧
      ((∀ d ∈ u.tmu.deferred, d.role ≠ .target) → (∃ r ∈ hostRecs, u.tryable x r = true) →
        (t.sub x).state = .searching ∧ (t.sub x).cause = .windowsMissed) ∧
      ((∀ r ∈ hostRecs, u.tryable x r = false) →
        (t.sub x).state = .lost ∧ (t.sub x).cause = .noCells ∧ (t.sbc.get x).lostRetry = some (u.now + 30000000))) ∧
    (∀ r, u.recordIn x .serving = some r → 8 ≤ (u.cell x r).failRun →
      ∃ t, exec (.failRun dt x) s = .next t ∧ (t.sub x).serving = none ∧
        (((t.sub x).state = .searching ∧ (t.sub x).cause = .failRun) ∨ (t.sub x).state = .lost) ∧
        ((∀ d ∈ u.tmu.deferred, d.role ≠ .target) → (∃ q ∈ hostRecs, u.tryable x q = true) →
          (t.sub x).state = .searching ∧ (t.sub x).cause = .failRun) ∧
        ((∀ q ∈ hostRecs, u.tryable x q = false) →
          (t.sub x).state = .lost ∧ (t.sub x).cause = .noCells ∧ (t.sbc.get x).lostRetry = some (u.now + 30000000)))

/-- A fail run of 100 in CONNECTED drops the call with LINK_LOST, and the second failure of a handover, at the reversion
deadline, with HANDOVER_LOST; the drop count rises and the subscription leaves CONNECTED and MOVING. -/
def Obligations.LostLinksDropTheCall : Prop :=
  ∀ (s u : State) (dt : Nat) (x : Sub) (k : Fin 4), u = s.advance dt → u.working = true → u.callOf x = some k →
    (∀ r, (u.sub x).state = .connected → u.recordIn x .serving = some r → 100 ≤ (u.cell x r).failRun →
      ∃ t, exec (.linkFailure dt x) s = .next t ∧
        (t.call k).part.state = .ended ∧ (t.call k).part.cause = .linkLost ∧ (t.call k).part.endTime = u.now ∧
        (t.sub x).drops = satInc 65535 (u.sub x).drops ∧ (t.sub x).serving = none ∧
        ((t.sub x).state = .searching ∨ (t.sub x).state = .lost ∨ (t.sub x).state = .off)) ∧
    ((u.machine x).state = .reverting → (u.machine x).leaveTime + 200000 ≤ u.now →
      ∃ t, exec (.secondFailure dt x) s = .next t ∧
        (t.call k).part.state = .ended ∧ (t.call k).part.cause = .handoverLost ∧ (t.call k).part.endTime = u.now ∧
        (t.sub x).drops = satInc 65535 (u.sub x).drops ∧ (t.sub x).serving = none ∧
        ((t.sub x).state = .searching ∨ (t.sub x).state = .lost ∨ (t.sub x).state = .off))

/-- A seek user whose deadline has come is told NOT FOUND: a VERIFY ends the reselection in hand with a quiet mark of 10 s, a
TARGET before the reversion deadline starts the reversion, a SEARCH goes on with the next record, or ends in LOST with
cause NOT_FOUND. -/
def Obligations.SeekDeadlineIsNotFound : Prop :=
  ∀ (s u : State) (dt : Nat) (c : Fin 3) (x : Sub) (d : Nat), u = s.advance dt → u.working = true →
    u.tmu.deferred = [] → d ≤ u.now →
    (({ role := .verify, sub := x, deadline := some d } : User) ∈ (u.ctx c).users →
      ∃ t, exec (.seekDeadline dt c .verify x) s = .next t ∧ (t.mbu.get x).inHand = none ∧
        ∀ r, u.recordFor x (u.ctx c).key = some r → (t.cell x r).quietUntil = u.now + 10000000) ∧
    (({ role := .target, sub := x, deadline := some d } : User) ∈ (u.ctx c).users →
      u.now < (u.machine x).leaveTime + 200000 →
      ∃ t, exec (.seekDeadline dt c .target x) s = .next t ∧ (t.machine x).state = .reverting) ∧
    (∀ p r rs, ({ role := .search, sub := x, deadline := some d } : User) ∈ (u.ctx c).users →
      (u.sbc.get x).search = some p → p.rest = r :: rs → u.tryable x r = true →
      ∃ t, exec (.seekDeadline dt c .search x) s = .next t ∧
        (t.sbc.get x).search = some { p with rest := rs, current := some (r, (u.cell x r).key) }) ∧
    (∀ p, ({ role := .search, sub := x, deadline := some d } : User) ∈ (u.ctx c).users →
      (u.sbc.get x).search = some p → p.rest = [] → p.changed = false →
      ∃ t, exec (.seekDeadline dt c .search x) s = .next t ∧ (t.sub x).state = .lost ∧ (t.sub x).cause = .notFound ∧
        (t.sbc.get x).lostRetry = some (u.now + 30000000))

/-- A LOST subscription searches again at its retry time; with no record to try it is LOST again for 30 s. -/
def Obligations.LostRetrySearches : Prop :=
  ∀ (s u : State) (dt : Nat) (x : Sub) (d : Nat), u = s.advance dt → u.working = true → u.marksOk = true →
    (u.sub x).state = .lost → (u.sbc.get x).lostRetry = some d → d ≤ u.now →
    ∃ t, exec (.lostRetry dt x) s = .next t ∧
      ((∃ r ∈ hostRecs, u.tryable x r = true) →
        (t.sub x).state = .searching ∧ (t.sub x).cause = (u.sub x).cause ∧ (t.sbc.get x).lostRetry = none) ∧
      ((∀ r ∈ hostRecs, u.tryable x r = false) →
        (t.sub x).state = .lost ∧ (t.sub x).cause = .noCells ∧ (t.sbc.get x).lostRetry = some (u.now + 30000000))

/-- A listen period ends at the planning event that offers the frame after its end frame, or the first ahead of it. That the
event may be due and not yet raised is the model's choice (notes/assumptions/100.md). -/
def Obligations.ListenPeriodEnds : Prop :=
  ∀ (s u : State) (dt : Nat) (x : Sub) (e : Frame), u = s.advance dt → u.working = true → u.marksOk = true →
    (u.sub x).listenEnd = some e → u.servingReached x (e + 1) = true →
    ∃ t, exec (.listenPeriodEnd dt x) s = .next t ∧ (t.sub x).listenEnd = none ∧ (t.sub x).state = (u.sub x).state ∧
      t.exm.attn &&& areaMask .subs ≠ 0 ∧ t.clu = u.clu ∧ t.cmu = u.cmu

/-! ### Calls -/

/-- A RINGING context ends at its expiry with cause NOT_ANSWERED. The access timer ends a call with NO_RESPONSE at the event
that offers F1 + 20, the release timer with LOCAL_RELEASE at the event that offers G1 + 20; the subscription camps again, or
goes OFF under a held disable, in every state that meets the invariant serviceOk, which every step keeps (StepKeepsOneCall): the
subscription of a radio-holding call then holds no search pass. That the event of a timer may be due and not yet raised is the model's choice
(notes/assumptions/100.md). -/
def Obligations.CallTimersEndTheCall : Prop :=
  (∀ (s u : State) (dt : Nat) (k : Fin 4) (d : Nat), u = s.advance dt → u.working = true → u.marksOk = true →
     (u.call k).part.state = .ringing → (u.call k).ring = some d → d ≤ u.now →
     ∃ t, exec (.ringingExpiry dt k) s = .next t ∧ (t.call k).part.state = .ended ∧
       (t.call k).part.cause = .notAnswered ∧ (t.call k).part.causeByte = 0 ∧ (t.call k).part.endTime = u.now ∧
       (t.call k).ring = none ∧ t.exm.attn &&& areaMask .calls ≠ 0 ∧ (∀ j, j ≠ k → t.call j = u.call j)) ∧
  (∀ (s u : State) (dt : Nat) (k : Fin 4) (f : Frame), u = s.advance dt → u.working = true →
     u.marksOk = true → u.serviceOk = true → u.holding k = true →
     u.servingReached (u.call k).part.owner (f + 20) = true →
     (∀ a, (u.call k).access = some a → a.first = some f →
       ∃ t, exec (.accessTimerExpiry dt k) s = .next t ∧ (t.call k).part.state = .ended ∧
         (t.call k).part.cause = .noResponse ∧ (t.call k).part.endTime = u.now ∧
         (t.sub (u.call k).part.owner).state =
           if (u.sbc.get (u.call k).part.owner).disableHeld then .off else .camped) ∧
     (∀ r, (u.call k).release = some r → r.first = some f →
       ∃ t, exec (.releaseTimerExpiry dt k) s = .next t ∧ (t.call k).part.state = .ended ∧
         (t.call k).part.cause = .localRelease ∧ (t.call k).part.endTime = u.now ∧
         (t.sub (u.call k).part.owner).state =
           if (u.sbc.get (u.call k).part.owner).disableHeld then .off else .camped))

/-- A DIAL for subscription `x` taken in FREE or ENDED, with no call radio-holding and `x` CAMPED without a held disable, is
accepted: the context is DIALLING afresh under the next call ref, and the subscription is CONNECTED with its machine in
WATCH; while a call is radio-holding it is refused with BUSY_RADIO and changes the taken stamp and the result alone. -/
def Obligations.DialIsAcceptedOrRefused : Prop :=
  ∀ (s : State) (k : Fin 4) (t : Stamp) (x : Sub), s.callSub k = some x →
    (s.call k).part.state = .free ∨ (s.call k).part.state = .ended →
    (s.anyHolding = false → (s.sub x).state = .camped → (s.sbc.get x).disableHeld = false →
      ((s.takeDial k t).call k).part.state = .dialling ∧ ((s.takeDial k t).call k).part.owner = x ∧
      ((s.takeDial k t).call k).part.ref = s.clu.nextRef.get x ∧
      (s.takeDial k t).clu.nextRef.get x = s.clu.nextRef.get x + 1 ∧
      ((s.takeDial k t).call k).part.taken = t ∧ ((s.takeDial k t).call k).part.result = .ok ∧
      ((s.takeDial k t).call k).part.down = 0 ∧ ((s.takeDial k t).call k).part.up = 0 ∧
      ((s.takeDial k t).call k).part.epoch = 0 ∧ ((s.takeDial k t).call k).dial = s.callDial k ∧
      ((s.takeDial k t).sub x).state = .connected ∧ ((s.takeDial k t).machine x).state = .watch) ∧
    (s.anyHolding = true → s.takeDial k t =
      s.callUpd k fun r => { r with taken := t, result := .busyRadio })

/-- A FREE of a call context is taken in ENDED: the state becomes FREE and the cause NONE, the other fields keep their values;
in any other state it is refused with WRONG_STATE. A FREE of an outbox slot is taken in SENT, FAILED or WITHDRAWN, and the slot
becomes EMPTY with its other fields kept; in EMPTY, QUEUED, SENDING or PAUSED it is refused with WRONG_STATE. -/
def Obligations.FreeRequests : Prop :=
  (∀ (s : State) (k : Fin 4) (t : Stamp),
     ((s.call k).part.state = .ended → s.takeFree k t =
       s.callUpd k fun r => { r with taken := t, result := .ok, state := .free, cause := .none }) ∧
     ((s.call k).part.state ≠ .ended → s.takeFree k t =
       s.callUpd k fun r => { r with taken := t, result := .wrongState })) ∧
  (∀ (s : State) (i : Fin 8) (t : Stamp),
     ((s.slot i).state = .sent ∨ (s.slot i).state = .failed ∨ (s.slot i).state = .withdrawn →
       s.takeOutFree i t = s.slotUpd i true fun o => { o with taken := t, result := .ok, state := .empty }) ∧
     ((s.slot i).state = .empty ∨ (s.slot i).state = .queued ∨ (s.slot i).state = .sending ∨
       (s.slot i).state = .paused →
       s.takeOutFree i t = s.slotUpd i true fun o => { o with taken := t, result := .wrongState }))

/-! ### Handover -/

/-- The report timer: an unheard report that is still triggered on its candidate is sent again, three times in all;
otherwise the machine gives up and returns to WATCH, and the candidate's own record has dwell 0, is quiet for 2 s, and returns
from TARGET to NEIGHBOUR (one that a fold has made SERVING keeps that role, notes/assumptions/85.md). A repeat expires 20 frames
after the frame that the serving context's event offers; a PLANNING_EVENT that offers the expiry frame before REPORT_TIMER_EXPIRY has come repeats at that very frame
(the model's choice of where the timer is acted on, notes/assumptions/58.md). -/
def Obligations.ReportTimerRepeatsOrGivesUp : Prop :=
  (∀ (s u : State) (dt : Nat) (x : Sub) (f : Frame), u = s.advance dt → u.working = true → u.marksOk = true →
    (u.machine x).state = .reported → (u.machine x).expiry = some f → u.servingReached x f = true →
    ∃ t, exec (.reportTimerExpiry dt x) s = .next t ∧
      ((u.machine x).heard = false → (u.machine x).sends < 3 → (u.machine x).stillTriggers = true →
        u.mayReport x = true →
        (t.machine x).state = .reported ∧ (t.machine x).sends = (u.machine x).sends + 1 ∧
        (t.machine x).candidate = (u.machine x).candidate ∧ (t.machine x).expiry = some (u.nextFrame x + 20)) ∧
      ((u.machine x).heard = true ∨ 3 ≤ (u.machine x).sends ∨ (u.machine x).stillTriggers = false ∨
        u.mayReport x = false → t.machine x = { HoMachine.reset with state := .watch } ∧
        ∀ k r, (u.machine x).candidate = some (k, r) →
          (t.cell x r).role = (if (u.cell x r).role = CellRole.target then .neighbour else (u.cell x r).role) ∧
          (t.cell x r).dwell = 0 ∧ (t.cell x r).quietUntil = u.now + 2000000)) ∧
  (∀ (s u : State) (dt : Nat) (x : Sub) (c : Fin 3) (e f : Frame), u = s.advance dt → u.working = true → u.marksOk = true →
    u.tmu.deferred = [] → u.dueOffer c = some f → u.servingCtx x = some c → (u.ctx c).staged = none →
    (u.machine x).state = .reported → (u.machine x).expiry = some e → atOrAhead f e = true →
    (u.machine x).heard = false → (u.machine x).sends < 3 → (u.machine x).stillTriggers = true → u.mayReport x = true →
    ∃ t, exec (.planningEvent dt c) s = .next t ∧ (t.machine x).state = .reported ∧
      (t.machine x).sends = (u.machine x).sends + 1 ∧ (t.machine x).candidate = (u.machine x).candidate ∧
      (t.machine x).expiry = some (f + 20))

/-- LEAVE, at the end of the order frame: the leave time is set, every voice frame after the order frame that was offered before
is made SUSPENDED in both directions, and with a FREE context the target is sought there. A handover whose target has not
answered by target frame N + 6 reverts. The frames that were offered before LEAVE are made SUSPENDED whatever their entries
hold, and each of the two events is left to its own row, as the model reads the manual (notes/assumptions/11.md and 2.md); a frame
offered to a call without slots is no voice frame, which is the model's choice (notes/assumptions/101.md). -/
def Obligations.HandoverLeavesAndReverts : Prop :=
  (∀ (s u : State) (dt : Nat) (x : Sub) (k : Fin 4) (c : Fin 3) (f : Frame) (o : Order), u = s.advance dt →
     u.working = true → u.marksOk = true → (u.machine x).state = .leave → u.callOf x = some k →
     (u.machine x).oldCtx = some c → (u.machine x).orderFrame = some f → (u.machine x).order = some o →
     (u.ctx c).startOf (f + 1) ≤ u.now → u.ctxWith o.key = none → u.freeIndex.isSome = true →
     ∃ t, exec (.leave dt x) s = .next t ∧ (t.machine x).state = .acquire ∧ (t.machine x).leaveTime = u.now ∧
       (t.call k).part.state = (u.call k).part.state ∧
       (∀ p ∈ (u.call k).pends, ahead p.frame f = true →
         { p with outcome := some (.suspended, []) } ∈ (t.call k).pends ∧
         (((u.call k).part.status[cellIndex p.frame]).frame = p.frame →
           (t.call k).part.status[cellIndex p.frame] = { frame := p.frame, outcome := .suspended })) ∧
       ∃ d, (t.ctx d).state = .seek ∧ (t.ctx d).key = o.key ∧ (t.ctx d).hasUser .target x = true) ∧
  (∀ (s u : State) (dt : Nat) (x : Sub) (c : Fin 3) (n : Frame), u = s.advance dt → u.working = true →
     (u.machine x).state = .arrive → u.ctxOf .target x = some c → (u.machine x).lock = some n →
     (u.ctx c).startOf (n + 6) ≤ u.now → u.now < (u.machine x).leaveTime + 200000 →
     ∃ t, exec (.arriveTimeout dt x) s = .next t ∧ (t.machine x).state = .reverting ∧ (t.machine x).lock = none ∧
       (t.machine x).leaveTime = (u.machine x).leaveTime)

/-! ### Texts -/

/-- An acknowledgement window that closes leaves no segment in flight: a withdraw pending turns into WITHDRAWN, and after
the fourth attempt no further one is planned. That the slot keeps its state on a failed fourth attempt, whose FAILED (NO_ACK)
is left to the NO_ACK command, is the model's choice (notes/assumptions/2.md). A PLANNING_EVENT that offers the closing frame
before ACK_WINDOW_CLOSE has come closes the window itself: whatever is then in flight is a segment of the frame it offers (the
model's choice of where the window closes, notes/assumptions/68.md). -/
def Obligations.AckWindowCloses : Prop :=
  (∀ (s u : State) (dt : Nat) (x : Sub) (i : Fin 8) (g : Flight), u = s.advance dt → u.working = true → u.marksOk = true →
    u.head x = some i → (u.side x).flight = some g → g.sent = true → u.servingReached x (g.frame + 6) = true →
    ∃ t, exec (.ackWindowClose dt x) s = .next t ∧ (t.side x).flight = none ∧
      ((u.slot i).withdraw = true → (t.slot i).state = .withdrawn ∧ (t.slot i).final = u.now) ∧
      ((u.slot i).withdraw = false → 4 ≤ (u.slot i).attempts → (t.side x).plan = .exhausted) ∧
      ((u.slot i).withdraw = false → (t.slot i).state = (u.slot i).state ∧ (t.slot i).acked = (u.slot i).acked ∧
        (t.slot i).attempts = (u.slot i).attempts)) ∧
  (∀ (s u : State) (dt : Nat) (x : Sub) (i : Fin 8) (c : Fin 3) (f : Frame) (g : Flight), u = s.advance dt →
    u.working = true → u.marksOk = true → u.tmu.deferred = [] → u.dueOffer c = some f → u.servingCtx x = some c →
    (u.ctx c).staged = none → u.head x = some i → (u.side x).flight = some g → g.sent = true →
    atOrAhead f (g.frame + 6) = true →
    ∃ t, exec (.planningEvent dt c) s = .next t ∧
      (∀ g', (t.side x).flight = some g' → g'.frame = f ∧ g'.sent = false) ∧
      ((u.slot i).withdraw = true → (t.slot i).state = .withdrawn ∧ (t.slot i).final = u.now))

/-- The head of a send queue fails: NO_ACK after its fourth attempt, RESTART_LIMIT at its fourth restart, NO_SERVICE when
its pause timer expires. The slot takes its final time, its withdraw-pending flag is cleared, OUTBOX is raised. -/
def Obligations.HeadFails : Prop :=
  ∀ (s u : State) (dt : Nat) (x : Sub) (i : Fin 8), u = s.advance dt → u.working = true → u.marksOk = true →
    u.head x = some i →
    ((u.side x).plan = .exhausted → ∃ t, exec (.noAck dt x) s = .next t ∧ (t.slot i).state = .failed ∧
      (t.slot i).cause = .noAck ∧ (t.slot i).final = u.now ∧ (t.slot i).withdraw = false ∧
      t.exm.attn &&& areaMask .outbox ≠ 0 ∧ t.clu = u.clu ∧ t.cmu = u.cmu) ∧
    (4 ≤ (u.slot i).restarts → ∃ t, exec (.restartLimit dt x) s = .next t ∧ (t.slot i).state = .failed ∧
      (t.slot i).cause = .restartLimit ∧ (t.slot i).final = u.now ∧ (t.slot i).withdraw = false ∧
      t.exm.attn &&& areaMask .outbox ≠ 0 ∧ t.clu = u.clu ∧ t.cmu = u.cmu) ∧
    (∀ d, (u.side x).pause = some d → d ≤ u.now → ∃ t, exec (.pauseExpiry dt x) s = .next t ∧
      (t.slot i).state = .failed ∧ (t.slot i).cause = .noService ∧ (t.slot i).final = u.now ∧
      (t.slot i).withdraw = false ∧ t.exm.attn &&& areaMask .outbox ≠ 0 ∧ t.clu = u.clu ∧ t.cmu = u.cmu)

/-- A reassembly context is discarded 2 s after its last segment, with nothing sent. -/
def Obligations.ReassemblyTimesOut : Prop :=
  ∀ (s u : State) (dt : Nat) (r : Fin 4), u = s.advance dt → u.working = true → u.marksOk = true →
    (u.txu.reasm[r]).state ≠ .idle → (u.txu.reasm[r]).lastTime + 2000000 ≤ u.now →
    ∃ t, exec (.reassemblyTimeout dt r) s = .next t ∧ t.txu.reasm[r] = Reasm.idle ∧
      (∀ q : Fin 4, q ≠ r → t.txu.reasm[q] = u.txu.reasm[q]) ∧ t.txu.inbox = u.txu.inbox ∧ t.txu.slots = u.txu.slots ∧
      t.txu.receipts = u.txu.receipts ∧ t.rpl = u.rpl

/-! ### Power -/

/-- A NAP ends when the next plan time arrives: the part is in RUN, and nothing else changes. The slow timer's expiry takes the
part to WAKING: local time is restored by the elapsed time, which is added to the total and to the accumulated sleep, and
every LOCKED or HOLDOVER context has its wake mark set. -/
def Obligations.NapAndSleepEnd : Prop :=
  (∀ (s u : State) (dt : Nat) (p : Int), u = s.advance dt → u.working = true → u.pwc.state = .nap →
     u.nextPlan = some p → p ≤ (u.now : Int) →
     exec (.napEnd dt) s = .next { u with pwc := { u.pwc with state := .run, change := u.pwc.change + 1 } }) ∧
  (∀ (s u : State) (dt n e : Nat), u = s.advance dt → u.pins.resetHeld = false → u.pwc.state = .sleep →
     n = u.pwc.target → n ≤ u.pwc.timer →
     e = (2 * (16000000000000 * n) + 32768 * (16000000 + u.pwc.usedDrift).toNat) /
       (2 * (32768 * (16000000 + u.pwc.usedDrift).toNat)) → u.now + e < 2 ^ 48 →
     ∃ t, exec (.slowTimerExpiry dt) s = .next t ∧ t.pwc.state = .waking ∧ t.now = u.now + e ∧ t.pwc.lastSleep = e ∧
       t.pwc.accum = u.pwc.accum + e ∧ t.pwc.totalSleep = min (2 ^ 48 - 1) (u.pwc.totalSleep + e) ∧
       t.pwc.wakeEnd = t.now + 3000 ∧
       (∀ c, (t.ctx c).wakeMark = ((u.ctx c).wakeMark || (u.ctx c).follows)) ∧ t.exm = u.exm ∧ t.rpl = u.rpl)

/-- WAKING ends after its 3,000 µs: every held scan is taken and TXINHIBIT is sampled; a held STOP is then taken, and
otherwise the sleep decision puts the part in SLEEP, NAP or RUN. SLEEP is taken with the permit FULL, no call radio-holding, no
send queue head SENDING, no reassembly context COLLECTING, no subscription in a listen period, no timing context with a seek
user, the scan-pending mask empty, and a gap of at least 20,000 µs to the next plan time or no such time; NAP is taken where
SLEEP is not, with the permit NAP or FULL and a gap of at least 2,000 µs or no such time; RUN otherwise. POWER is raised. That
held scans are taken before a held STOP, so that the mask is 0 there too, is the model's choice of order
(notes/assumptions/22.md); that the part stays in RUN while a limit waits to be acted on is its reading
(notes/assumptions/95.md). -/
def Obligations.WakingEnds : Prop :=
  ∀ (s u : State) (dt : Nat), u = s.advance dt → u.pins.resetHeld = false → u.pwc.state = .waking →
    u.pwc.wakeEnd ≤ u.now →
    ∃ t, exec (.wakingEnd dt) s = .next t ∧ t.exm.scan = 0 ∧ t.rpl.inhibit = u.pins.txInhibit ∧
      t.exm.attn &&& areaMask .power ≠ 0 ∧ t.exm.mem = s.exm.mem ∧
      (u.exm.heldStop = true → t.exm.run = .stopped ∧ t.pwc.state = .run ∧ t.exm.heldStop = false) ∧
      (u.exm.heldStop = false → t.exm.run = u.exm.run ∧ t.pwc.permit = u.pwc.permit ∧
        (t.pwc.state = .sleep ↔ t.pwc.permit = .full ∧
          (t.anyHolding = false ∧ (∀ x, t.headSending x = false) ∧ (∀ r : Fin 4, (t.txu.reasm[r]).state ≠ .collecting) ∧
            (∀ x, (t.sub x).listenEnd = none) ∧
            (∀ (c : Fin 3) (w : User), w ∈ (t.ctx c).users → isSeek w.role = false)) ∧ t.limitReached = false ∧
          (∀ p, t.nextPlan = some p → (t.now : Int) + 20000 ≤ p)) ∧
        (t.pwc.state = .nap ↔ t.pwc.state ≠ .sleep ∧ t.pwc.permit ≠ .none ∧ t.limitReached = false ∧
          (∀ p, t.nextPlan = some p → (t.now : Int) + 2000 ≤ p)) ∧
        (t.pwc.state = .run ↔ t.pwc.state ≠ .sleep ∧ t.pwc.state ≠ .nap))

/-- A used drift sample moves the estimate a quarter of the way to the sample drift, both clamped to −3200..+3200, and
raises POWER; it is used from the next programming of the slow timer, and a sleep in progress keeps its own. -/
def Obligations.DriftSampleIsUsed : Prop :=
  (∀ (s : State) (e : Int), 200000 ≤ s.pwc.accum → e.natAbs ≤ 1000 →
    s.driftSample e = ({ s with pwc := { s.pwc with
      accum := 0, sampled := true, change := s.pwc.change + 1
      drift := max (-3200) (min 3200 (s.pwc.drift +
        (max (-3200) (min 3200 (s.pwc.drift + (e * 16000000).tdiv s.pwc.accum)) - s.pwc.drift).tdiv 4)) } } :
      State).raise .power) ∧
  (∀ s t : State, s.driftOk = true → step s = .next t → t.driftOk = true) ∧
  (∀ s : State, s.enterSleep.pwc.usedDrift = s.pwc.drift ∧
    s.enterSleep.pwc.target = 32768 * (s.wakeTarget - s.now) * (16000000 + s.pwc.drift).toNat / 16000000000000) ∧
  (∀ (s : State) (e : Int), (s.driftSample e).pwc.usedDrift = s.pwc.usedDrift) ∧
  (∀ (s : State) (n : Nat), (s.enterWaking n).pwc.lastSleep = elapsedTime n s.pwc.usedDrift)

/-! ### Arbitration, ranking and levels -/

/-- Of two conflicting occupancies the winner is decided by the lending test where it applies, then the lower class, then
the earlier start, then A's request, then the occupancy already in the list. That a merged PAGING which the other subscription
requests as well still takes the lending test is the model's choice (notes/assumptions/56.md). -/
def Obligations.WinnersOfConflicts : Prop :=
  ∀ (lend : Sub → Nat) (n o : Occ),
    (∀ x, n.kind = .paging → n.cls = 3 → n.asksPaging x = true → o.cls = 2 → o.asks (otherSub x) = true →
      o.asks x = false → (beats lend n o = true ↔ 2 ≤ lend x) ∧ (beats lend o n = true ↔ ¬ 2 ≤ lend x)) ∧
    (lendingPair n o = none → lendingPair o n = none →
      (n.cls < o.cls → beats lend n o = true) ∧ (o.cls < n.cls → beats lend n o = false) ∧
      (n.cls = o.cls → n.start < o.start → beats lend n o = true) ∧
      (n.cls = o.cls → o.start < n.start → beats lend n o = false) ∧
      (n.cls = o.cls → n.start = o.start → (beats lend n o = true ↔ n.asks .a = true ∧ o.asks .a = false))) ∧
    (∀ x, lendingPair n o = some x → n.kind = .paging ∧ n.cls = 3 ∧ n.asksPaging x = true ∧ o.cls = 2 ∧
      o.asks (otherSub x) = true ∧ o.asks x = false)

/-- The required dwell is D·m div 4, at least 1, with m 4, 2 and 1 in NORMAL, MEDIUM and HIGH, and 1 at a barred window; an
evaluation takes it from the dwell setting as last taken and the speed class it has just found. -/
def Obligations.RequiredDwell : Prop :=
  (∀ d : Nat, requiredDwell d .normal false = max 1 (d * 4 / 4) ∧ requiredDwell d .medium false = max 1 (d * 2 / 4) ∧
    requiredDwell d .high false = max 1 (d * 1 / 4)) ∧
  (∀ (d : Nat) (c : SpeedClass), requiredDwell d c true = 1) ∧
  (∀ (s t : State) (x : Sub) (b : Bool) (r : Option Trigger), s.evaluate x b = (t, r) →
    (t.sub x).speed = speedAt (s.sub x).history s.now ∧
    r = (t.candidate x (t.sub x).evals (requiredDwell (s.set x).dwell (t.sub x).speed b)).map fun i => t.trigger x i)

/-- The filter: the first sample sets F to 16·S, a later one moves it by trunc((16·S − F) / 2^k), so that F stays between
its old value and 16·S. -/
def Obligations.LevelFilter : Prop :=
  ∀ (c : CellRec) (k smp : Nat),
    (c.count = 0 → filtered c k smp = 16 * smp) ∧
    (c.count ≠ 0 → (filtered c k smp : Int) = (c.level : Int) + (16 * (smp : Int) - c.level).tdiv (2 ^ k)) ∧
    (c.count ≠ 0 → min c.level (16 * smp) ≤ filtered c k smp ∧ filtered c k smp ≤ max c.level (16 * smp)) ∧
    (c.count ≠ 0 → (16 * (smp : Int) - c.level).natAbs < 2 ^ k → filtered c k smp = c.level)

/-- The receipt of a context's last segment lets a DELIVERED-UNACKED context go when it ends DONE; one that ends otherwise,
and every other receipt, leaves the context's state as it is. -/
def Obligations.LastReceiptLetsGo : Prop :=
  ∀ (s : State) (x : Sub) (ref : Ref),
    (∀ r : Fin 4, (s.txu.reasm[r]).state = .deliveredUnacked → (s.txu.reasm[r]).sub = x → (s.txu.reasm[r]).ref = ref →
      (s.receiptOutcome x ref (some r) .done).txu.reasm[r] = Reasm.idle) ∧
    (∀ (r : Fin 4) (e : Ending), e ≠ .done → s.receiptOutcome x ref (some r) e = s) ∧
    (∀ e : Ending, s.receiptOutcome x ref none e = s)
end

