-- ==== Sys2Proof/Laws/State.lean ====
section
/-! SUPPORT. What each update of the state leaves and writes: one lemma per field per update, and the readers after the
writers. -/

namespace Sys2Proof.Machine

/-! ### The two subscriptions -/

@[simp] theorem Pair.get_set_same {α : Type} (p : Pair α) (x : Sub) (v : α) : (p.set x v).get x = v := by cases x <;> rfl
@[simp] theorem Pair.get_set_other {α : Type} (p : Pair α) {x y : Sub} (h : y ≠ x) (v : α) :
    (p.set x v).get y = p.get y := by cases x <;> cases y <;> simp_all [Pair.set, Pair.get]
theorem Pair.get_set {α : Type} (p : Pair α) (x y : Sub) (v : α) :
    (p.set x v).get y = if y = x then v else p.get y := by cases x <;> cases y <;> simp [Pair.set, Pair.get]
theorem otherSub_ne (x : Sub) : otherSub x ≠ x := by cases x <;> decide

/-! ### `State.modCtx` -/

@[simp] theorem State.exm_modCtx (s : State) (c : Fin 3) (f : Ctx → Ctx) : (s.modCtx c f).exm = s.exm := rfl
@[simp] theorem State.rpl_modCtx (s : State) (c : Fin 3) (f : Ctx → Ctx) : (s.modCtx c f).rpl = s.rpl := rfl
@[simp] theorem State.sbc_modCtx (s : State) (c : Fin 3) (f : Ctx → Ctx) : (s.modCtx c f).sbc = s.sbc := rfl
@[simp] theorem State.cmu_modCtx (s : State) (c : Fin 3) (f : Ctx → Ctx) : (s.modCtx c f).cmu = s.cmu := rfl
@[simp] theorem State.mbu_modCtx (s : State) (c : Fin 3) (f : Ctx → Ctx) : (s.modCtx c f).mbu = s.mbu := rfl
@[simp] theorem State.clu_modCtx (s : State) (c : Fin 3) (f : Ctx → Ctx) : (s.modCtx c f).clu = s.clu := rfl
@[simp] theorem State.txu_modCtx (s : State) (c : Fin 3) (f : Ctx → Ctx) : (s.modCtx c f).txu = s.txu := rfl
@[simp] theorem State.pwc_modCtx (s : State) (c : Fin 3) (f : Ctx → Ctx) : (s.modCtx c f).pwc = s.pwc := rfl
@[simp] theorem State.pins_modCtx (s : State) (c : Fin 3) (f : Ctx → Ctx) : (s.modCtx c f).pins = s.pins := rfl
@[simp] theorem State.pending_modCtx (s : State) (c : Fin 3) (f : Ctx → Ctx) : (s.modCtx c f).pending = s.pending := rfl

/-! ### `State.refresh` -/

@[simp] theorem State.exm_refresh (s : State) : (s.refresh).exm = s.exm := rfl
@[simp] theorem State.rpl_refresh (s : State) : (s.refresh).rpl = s.rpl := rfl
@[simp] theorem State.sbc_refresh (s : State) : (s.refresh).sbc = s.sbc := rfl
@[simp] theorem State.cmu_refresh (s : State) : (s.refresh).cmu = s.cmu := rfl
@[simp] theorem State.mbu_refresh (s : State) : (s.refresh).mbu = s.mbu := rfl
@[simp] theorem State.clu_refresh (s : State) : (s.refresh).clu = s.clu := rfl
@[simp] theorem State.txu_refresh (s : State) : (s.refresh).txu = s.txu := rfl
@[simp] theorem State.pwc_refresh (s : State) : (s.refresh).pwc = s.pwc := rfl
@[simp] theorem State.pins_refresh (s : State) : (s.refresh).pins = s.pins := rfl
@[simp] theorem State.pending_refresh (s : State) : (s.refresh).pending = s.pending := rfl

/-! ### `State.cancelDeferred` -/

@[simp] theorem State.exm_cancelDeferred (s : State) (r : Role) (x : Sub) : (s.cancelDeferred r x).exm = s.exm := rfl
@[simp] theorem State.rpl_cancelDeferred (s : State) (r : Role) (x : Sub) : (s.cancelDeferred r x).rpl = s.rpl := rfl
@[simp] theorem State.sbc_cancelDeferred (s : State) (r : Role) (x : Sub) : (s.cancelDeferred r x).sbc = s.sbc := rfl
@[simp] theorem State.cmu_cancelDeferred (s : State) (r : Role) (x : Sub) : (s.cancelDeferred r x).cmu = s.cmu := rfl
@[simp] theorem State.mbu_cancelDeferred (s : State) (r : Role) (x : Sub) : (s.cancelDeferred r x).mbu = s.mbu := rfl
@[simp] theorem State.clu_cancelDeferred (s : State) (r : Role) (x : Sub) : (s.cancelDeferred r x).clu = s.clu := rfl
@[simp] theorem State.txu_cancelDeferred (s : State) (r : Role) (x : Sub) : (s.cancelDeferred r x).txu = s.txu := rfl
@[simp] theorem State.pwc_cancelDeferred (s : State) (r : Role) (x : Sub) : (s.cancelDeferred r x).pwc = s.pwc := rfl
@[simp] theorem State.pins_cancelDeferred (s : State) (r : Role) (x : Sub) : (s.cancelDeferred r x).pins = s.pins := rfl
@[simp] theorem State.pending_cancelDeferred (s : State) (r : Role) (x : Sub) : (s.cancelDeferred r x).pending = s.pending := rfl

/-! ### `State.modSbc` -/

@[simp] theorem State.exm_modSbc (s : State) (x : Sub) (f : SbcX → SbcX) : (s.modSbc x f).exm = s.exm := rfl
@[simp] theorem State.tmu_modSbc (s : State) (x : Sub) (f : SbcX → SbcX) : (s.modSbc x f).tmu = s.tmu := rfl
@[simp] theorem State.rpl_modSbc (s : State) (x : Sub) (f : SbcX → SbcX) : (s.modSbc x f).rpl = s.rpl := rfl
@[simp] theorem State.cmu_modSbc (s : State) (x : Sub) (f : SbcX → SbcX) : (s.modSbc x f).cmu = s.cmu := rfl
@[simp] theorem State.mbu_modSbc (s : State) (x : Sub) (f : SbcX → SbcX) : (s.modSbc x f).mbu = s.mbu := rfl
@[simp] theorem State.clu_modSbc (s : State) (x : Sub) (f : SbcX → SbcX) : (s.modSbc x f).clu = s.clu := rfl
@[simp] theorem State.txu_modSbc (s : State) (x : Sub) (f : SbcX → SbcX) : (s.modSbc x f).txu = s.txu := rfl
@[simp] theorem State.pwc_modSbc (s : State) (x : Sub) (f : SbcX → SbcX) : (s.modSbc x f).pwc = s.pwc := rfl
@[simp] theorem State.pins_modSbc (s : State) (x : Sub) (f : SbcX → SbcX) : (s.modSbc x f).pins = s.pins := rfl
@[simp] theorem State.pending_modSbc (s : State) (x : Sub) (f : SbcX → SbcX) : (s.modSbc x f).pending = s.pending := rfl

/-! ### `State.modTable` -/

@[simp] theorem State.exm_modTable (s : State) (x : Sub) (f : CellTable → CellTable) : (s.modTable x f).exm = s.exm := rfl
@[simp] theorem State.tmu_modTable (s : State) (x : Sub) (f : CellTable → CellTable) : (s.modTable x f).tmu = s.tmu := rfl
@[simp] theorem State.rpl_modTable (s : State) (x : Sub) (f : CellTable → CellTable) : (s.modTable x f).rpl = s.rpl := rfl
@[simp] theorem State.sbc_modTable (s : State) (x : Sub) (f : CellTable → CellTable) : (s.modTable x f).sbc = s.sbc := rfl
@[simp] theorem State.mbu_modTable (s : State) (x : Sub) (f : CellTable → CellTable) : (s.modTable x f).mbu = s.mbu := rfl
@[simp] theorem State.clu_modTable (s : State) (x : Sub) (f : CellTable → CellTable) : (s.modTable x f).clu = s.clu := rfl
@[simp] theorem State.txu_modTable (s : State) (x : Sub) (f : CellTable → CellTable) : (s.modTable x f).txu = s.txu := rfl
@[simp] theorem State.pwc_modTable (s : State) (x : Sub) (f : CellTable → CellTable) : (s.modTable x f).pwc = s.pwc := rfl
@[simp] theorem State.pins_modTable (s : State) (x : Sub) (f : CellTable → CellTable) : (s.modTable x f).pins = s.pins := rfl
@[simp] theorem State.pending_modTable (s : State) (x : Sub) (f : CellTable → CellTable) : (s.modTable x f).pending = s.pending := rfl

/-! ### `State.modCell` -/

@[simp] theorem State.exm_modCell (s : State) (x : Sub) (r : Fin 18) (f : CellRec → CellRec) : (s.modCell x r f).exm = s.exm := rfl
@[simp] theorem State.tmu_modCell (s : State) (x : Sub) (r : Fin 18) (f : CellRec → CellRec) : (s.modCell x r f).tmu = s.tmu := rfl
@[simp] theorem State.rpl_modCell (s : State) (x : Sub) (r : Fin 18) (f : CellRec → CellRec) : (s.modCell x r f).rpl = s.rpl := rfl
@[simp] theorem State.sbc_modCell (s : State) (x : Sub) (r : Fin 18) (f : CellRec → CellRec) : (s.modCell x r f).sbc = s.sbc := rfl
@[simp] theorem State.mbu_modCell (s : State) (x : Sub) (r : Fin 18) (f : CellRec → CellRec) : (s.modCell x r f).mbu = s.mbu := rfl
@[simp] theorem State.clu_modCell (s : State) (x : Sub) (r : Fin 18) (f : CellRec → CellRec) : (s.modCell x r f).clu = s.clu := rfl
@[simp] theorem State.txu_modCell (s : State) (x : Sub) (r : Fin 18) (f : CellRec → CellRec) : (s.modCell x r f).txu = s.txu := rfl
@[simp] theorem State.pwc_modCell (s : State) (x : Sub) (r : Fin 18) (f : CellRec → CellRec) : (s.modCell x r f).pwc = s.pwc := rfl
@[simp] theorem State.pins_modCell (s : State) (x : Sub) (r : Fin 18) (f : CellRec → CellRec) : (s.modCell x r f).pins = s.pins := rfl
@[simp] theorem State.pending_modCell (s : State) (x : Sub) (r : Fin 18) (f : CellRec → CellRec) : (s.modCell x r f).pending = s.pending := rfl

/-! ### `State.modMbu` -/

@[simp] theorem State.exm_modMbu (s : State) (x : Sub) (f : MbuX → MbuX) : (s.modMbu x f).exm = s.exm := rfl
@[simp] theorem State.tmu_modMbu (s : State) (x : Sub) (f : MbuX → MbuX) : (s.modMbu x f).tmu = s.tmu := rfl
@[simp] theorem State.rpl_modMbu (s : State) (x : Sub) (f : MbuX → MbuX) : (s.modMbu x f).rpl = s.rpl := rfl
@[simp] theorem State.sbc_modMbu (s : State) (x : Sub) (f : MbuX → MbuX) : (s.modMbu x f).sbc = s.sbc := rfl
@[simp] theorem State.cmu_modMbu (s : State) (x : Sub) (f : MbuX → MbuX) : (s.modMbu x f).cmu = s.cmu := rfl
@[simp] theorem State.clu_modMbu (s : State) (x : Sub) (f : MbuX → MbuX) : (s.modMbu x f).clu = s.clu := rfl
@[simp] theorem State.txu_modMbu (s : State) (x : Sub) (f : MbuX → MbuX) : (s.modMbu x f).txu = s.txu := rfl
@[simp] theorem State.pwc_modMbu (s : State) (x : Sub) (f : MbuX → MbuX) : (s.modMbu x f).pwc = s.pwc := rfl
@[simp] theorem State.pins_modMbu (s : State) (x : Sub) (f : MbuX → MbuX) : (s.modMbu x f).pins = s.pins := rfl
@[simp] theorem State.pending_modMbu (s : State) (x : Sub) (f : MbuX → MbuX) : (s.modMbu x f).pending = s.pending := rfl

/-! ### `State.modMachine` -/

@[simp] theorem State.exm_modMachine (s : State) (x : Sub) (f : HoMachine → HoMachine) : (s.modMachine x f).exm = s.exm := rfl
@[simp] theorem State.tmu_modMachine (s : State) (x : Sub) (f : HoMachine → HoMachine) : (s.modMachine x f).tmu = s.tmu := rfl
@[simp] theorem State.rpl_modMachine (s : State) (x : Sub) (f : HoMachine → HoMachine) : (s.modMachine x f).rpl = s.rpl := rfl
@[simp] theorem State.sbc_modMachine (s : State) (x : Sub) (f : HoMachine → HoMachine) : (s.modMachine x f).sbc = s.sbc := rfl
@[simp] theorem State.cmu_modMachine (s : State) (x : Sub) (f : HoMachine → HoMachine) : (s.modMachine x f).cmu = s.cmu := rfl
@[simp] theorem State.clu_modMachine (s : State) (x : Sub) (f : HoMachine → HoMachine) : (s.modMachine x f).clu = s.clu := rfl
@[simp] theorem State.txu_modMachine (s : State) (x : Sub) (f : HoMachine → HoMachine) : (s.modMachine x f).txu = s.txu := rfl
@[simp] theorem State.pwc_modMachine (s : State) (x : Sub) (f : HoMachine → HoMachine) : (s.modMachine x f).pwc = s.pwc := rfl
@[simp] theorem State.pins_modMachine (s : State) (x : Sub) (f : HoMachine → HoMachine) : (s.modMachine x f).pins = s.pins := rfl
@[simp] theorem State.pending_modMachine (s : State) (x : Sub) (f : HoMachine → HoMachine) : (s.modMachine x f).pending = s.pending := rfl

/-! ### `State.modCall` -/

@[simp] theorem State.exm_modCall (s : State) (k : Fin 4) (f : Call → Call) : (s.modCall k f).exm = s.exm := rfl
@[simp] theorem State.tmu_modCall (s : State) (k : Fin 4) (f : Call → Call) : (s.modCall k f).tmu = s.tmu := rfl
@[simp] theorem State.rpl_modCall (s : State) (k : Fin 4) (f : Call → Call) : (s.modCall k f).rpl = s.rpl := rfl
@[simp] theorem State.sbc_modCall (s : State) (k : Fin 4) (f : Call → Call) : (s.modCall k f).sbc = s.sbc := rfl
@[simp] theorem State.cmu_modCall (s : State) (k : Fin 4) (f : Call → Call) : (s.modCall k f).cmu = s.cmu := rfl
@[simp] theorem State.mbu_modCall (s : State) (k : Fin 4) (f : Call → Call) : (s.modCall k f).mbu = s.mbu := rfl
@[simp] theorem State.txu_modCall (s : State) (k : Fin 4) (f : Call → Call) : (s.modCall k f).txu = s.txu := rfl
@[simp] theorem State.pwc_modCall (s : State) (k : Fin 4) (f : Call → Call) : (s.modCall k f).pwc = s.pwc := rfl
@[simp] theorem State.pins_modCall (s : State) (k : Fin 4) (f : Call → Call) : (s.modCall k f).pins = s.pins := rfl
@[simp] theorem State.pending_modCall (s : State) (k : Fin 4) (f : Call → Call) : (s.modCall k f).pending = s.pending := rfl

/-! ### `State.takeRef` -/

@[simp] theorem State.exm_takeRef (s : State) (x : Sub) : (s.takeRef x).exm = s.exm := rfl
@[simp] theorem State.tmu_takeRef (s : State) (x : Sub) : (s.takeRef x).tmu = s.tmu := rfl
@[simp] theorem State.rpl_takeRef (s : State) (x : Sub) : (s.takeRef x).rpl = s.rpl := rfl
@[simp] theorem State.sbc_takeRef (s : State) (x : Sub) : (s.takeRef x).sbc = s.sbc := rfl
@[simp] theorem State.cmu_takeRef (s : State) (x : Sub) : (s.takeRef x).cmu = s.cmu := rfl
@[simp] theorem State.mbu_takeRef (s : State) (x : Sub) : (s.takeRef x).mbu = s.mbu := rfl
@[simp] theorem State.txu_takeRef (s : State) (x : Sub) : (s.takeRef x).txu = s.txu := rfl
@[simp] theorem State.pwc_takeRef (s : State) (x : Sub) : (s.takeRef x).pwc = s.pwc := rfl
@[simp] theorem State.pins_takeRef (s : State) (x : Sub) : (s.takeRef x).pins = s.pins := rfl
@[simp] theorem State.pending_takeRef (s : State) (x : Sub) : (s.takeRef x).pending = s.pending := rfl

/-! ### `State.setDecline` -/

@[simp] theorem State.exm_setDecline (s : State) (x : Sub) (r : Option Ref) : (s.setDecline x r).exm = s.exm := rfl
@[simp] theorem State.tmu_setDecline (s : State) (x : Sub) (r : Option Ref) : (s.setDecline x r).tmu = s.tmu := rfl
@[simp] theorem State.rpl_setDecline (s : State) (x : Sub) (r : Option Ref) : (s.setDecline x r).rpl = s.rpl := rfl
@[simp] theorem State.sbc_setDecline (s : State) (x : Sub) (r : Option Ref) : (s.setDecline x r).sbc = s.sbc := rfl
@[simp] theorem State.cmu_setDecline (s : State) (x : Sub) (r : Option Ref) : (s.setDecline x r).cmu = s.cmu := rfl
@[simp] theorem State.mbu_setDecline (s : State) (x : Sub) (r : Option Ref) : (s.setDecline x r).mbu = s.mbu := rfl
@[simp] theorem State.txu_setDecline (s : State) (x : Sub) (r : Option Ref) : (s.setDecline x r).txu = s.txu := rfl
@[simp] theorem State.pwc_setDecline (s : State) (x : Sub) (r : Option Ref) : (s.setDecline x r).pwc = s.pwc := rfl
@[simp] theorem State.pins_setDecline (s : State) (x : Sub) (r : Option Ref) : (s.setDecline x r).pins = s.pins := rfl
@[simp] theorem State.pending_setDecline (s : State) (x : Sub) (r : Option Ref) : (s.setDecline x r).pending = s.pending := rfl

/-! ### `State.modSlot` -/

@[simp] theorem State.exm_modSlot (s : State) (i : Fin 8) (f : OutSlot → OutSlot) : (s.modSlot i f).exm = s.exm := rfl
@[simp] theorem State.tmu_modSlot (s : State) (i : Fin 8) (f : OutSlot → OutSlot) : (s.modSlot i f).tmu = s.tmu := rfl
@[simp] theorem State.rpl_modSlot (s : State) (i : Fin 8) (f : OutSlot → OutSlot) : (s.modSlot i f).rpl = s.rpl := rfl
@[simp] theorem State.sbc_modSlot (s : State) (i : Fin 8) (f : OutSlot → OutSlot) : (s.modSlot i f).sbc = s.sbc := rfl
@[simp] theorem State.cmu_modSlot (s : State) (i : Fin 8) (f : OutSlot → OutSlot) : (s.modSlot i f).cmu = s.cmu := rfl
@[simp] theorem State.mbu_modSlot (s : State) (i : Fin 8) (f : OutSlot → OutSlot) : (s.modSlot i f).mbu = s.mbu := rfl
@[simp] theorem State.clu_modSlot (s : State) (i : Fin 8) (f : OutSlot → OutSlot) : (s.modSlot i f).clu = s.clu := rfl
@[simp] theorem State.pwc_modSlot (s : State) (i : Fin 8) (f : OutSlot → OutSlot) : (s.modSlot i f).pwc = s.pwc := rfl
@[simp] theorem State.pins_modSlot (s : State) (i : Fin 8) (f : OutSlot → OutSlot) : (s.modSlot i f).pins = s.pins := rfl
@[simp] theorem State.pending_modSlot (s : State) (i : Fin 8) (f : OutSlot → OutSlot) : (s.modSlot i f).pending = s.pending := rfl

/-! ### `State.modSide` -/

@[simp] theorem State.exm_modSide (s : State) (x : Sub) (f : SendSide → SendSide) : (s.modSide x f).exm = s.exm := rfl
@[simp] theorem State.tmu_modSide (s : State) (x : Sub) (f : SendSide → SendSide) : (s.modSide x f).tmu = s.tmu := rfl
@[simp] theorem State.rpl_modSide (s : State) (x : Sub) (f : SendSide → SendSide) : (s.modSide x f).rpl = s.rpl := rfl
@[simp] theorem State.sbc_modSide (s : State) (x : Sub) (f : SendSide → SendSide) : (s.modSide x f).sbc = s.sbc := rfl
@[simp] theorem State.cmu_modSide (s : State) (x : Sub) (f : SendSide → SendSide) : (s.modSide x f).cmu = s.cmu := rfl
@[simp] theorem State.mbu_modSide (s : State) (x : Sub) (f : SendSide → SendSide) : (s.modSide x f).mbu = s.mbu := rfl
@[simp] theorem State.clu_modSide (s : State) (x : Sub) (f : SendSide → SendSide) : (s.modSide x f).clu = s.clu := rfl
@[simp] theorem State.pwc_modSide (s : State) (x : Sub) (f : SendSide → SendSide) : (s.modSide x f).pwc = s.pwc := rfl
@[simp] theorem State.pins_modSide (s : State) (x : Sub) (f : SendSide → SendSide) : (s.modSide x f).pins = s.pins := rfl
@[simp] theorem State.pending_modSide (s : State) (x : Sub) (f : SendSide → SendSide) : (s.modSide x f).pending = s.pending := rfl

/-! ### `State.modReasm` -/

@[simp] theorem State.exm_modReasm (s : State) (i : Fin 4) (f : Reasm → Reasm) : (s.modReasm i f).exm = s.exm := rfl
@[simp] theorem State.tmu_modReasm (s : State) (i : Fin 4) (f : Reasm → Reasm) : (s.modReasm i f).tmu = s.tmu := rfl
@[simp] theorem State.rpl_modReasm (s : State) (i : Fin 4) (f : Reasm → Reasm) : (s.modReasm i f).rpl = s.rpl := rfl
@[simp] theorem State.sbc_modReasm (s : State) (i : Fin 4) (f : Reasm → Reasm) : (s.modReasm i f).sbc = s.sbc := rfl
@[simp] theorem State.cmu_modReasm (s : State) (i : Fin 4) (f : Reasm → Reasm) : (s.modReasm i f).cmu = s.cmu := rfl
@[simp] theorem State.mbu_modReasm (s : State) (i : Fin 4) (f : Reasm → Reasm) : (s.modReasm i f).mbu = s.mbu := rfl
@[simp] theorem State.clu_modReasm (s : State) (i : Fin 4) (f : Reasm → Reasm) : (s.modReasm i f).clu = s.clu := rfl
@[simp] theorem State.pwc_modReasm (s : State) (i : Fin 4) (f : Reasm → Reasm) : (s.modReasm i f).pwc = s.pwc := rfl
@[simp] theorem State.pins_modReasm (s : State) (i : Fin 4) (f : Reasm → Reasm) : (s.modReasm i f).pins = s.pins := rfl
@[simp] theorem State.pending_modReasm (s : State) (i : Fin 4) (f : Reasm → Reasm) : (s.modReasm i f).pending = s.pending := rfl

/-! ### `State.modInbox` -/

@[simp] theorem State.exm_modInbox (s : State) (i : Fin 8) (f : InSlot → InSlot) : (s.modInbox i f).exm = s.exm := rfl
@[simp] theorem State.tmu_modInbox (s : State) (i : Fin 8) (f : InSlot → InSlot) : (s.modInbox i f).tmu = s.tmu := rfl
@[simp] theorem State.rpl_modInbox (s : State) (i : Fin 8) (f : InSlot → InSlot) : (s.modInbox i f).rpl = s.rpl := rfl
@[simp] theorem State.sbc_modInbox (s : State) (i : Fin 8) (f : InSlot → InSlot) : (s.modInbox i f).sbc = s.sbc := rfl
@[simp] theorem State.cmu_modInbox (s : State) (i : Fin 8) (f : InSlot → InSlot) : (s.modInbox i f).cmu = s.cmu := rfl
@[simp] theorem State.mbu_modInbox (s : State) (i : Fin 8) (f : InSlot → InSlot) : (s.modInbox i f).mbu = s.mbu := rfl
@[simp] theorem State.clu_modInbox (s : State) (i : Fin 8) (f : InSlot → InSlot) : (s.modInbox i f).clu = s.clu := rfl
@[simp] theorem State.pwc_modInbox (s : State) (i : Fin 8) (f : InSlot → InSlot) : (s.modInbox i f).pwc = s.pwc := rfl
@[simp] theorem State.pins_modInbox (s : State) (i : Fin 8) (f : InSlot → InSlot) : (s.modInbox i f).pins = s.pins := rfl
@[simp] theorem State.pending_modInbox (s : State) (i : Fin 8) (f : InSlot → InSlot) : (s.modInbox i f).pending = s.pending := rfl

/-! ### `State.dropReceipts` -/

@[simp] theorem State.exm_dropReceipts (s : State) (x : Sub) : (s.dropReceipts x).exm = s.exm := rfl
@[simp] theorem State.tmu_dropReceipts (s : State) (x : Sub) : (s.dropReceipts x).tmu = s.tmu := rfl
@[simp] theorem State.rpl_dropReceipts (s : State) (x : Sub) : (s.dropReceipts x).rpl = s.rpl := rfl
@[simp] theorem State.sbc_dropReceipts (s : State) (x : Sub) : (s.dropReceipts x).sbc = s.sbc := rfl
@[simp] theorem State.cmu_dropReceipts (s : State) (x : Sub) : (s.dropReceipts x).cmu = s.cmu := rfl
@[simp] theorem State.mbu_dropReceipts (s : State) (x : Sub) : (s.dropReceipts x).mbu = s.mbu := rfl
@[simp] theorem State.clu_dropReceipts (s : State) (x : Sub) : (s.dropReceipts x).clu = s.clu := rfl
@[simp] theorem State.pwc_dropReceipts (s : State) (x : Sub) : (s.dropReceipts x).pwc = s.pwc := rfl
@[simp] theorem State.pins_dropReceipts (s : State) (x : Sub) : (s.dropReceipts x).pins = s.pins := rfl
@[simp] theorem State.pending_dropReceipts (s : State) (x : Sub) : (s.dropReceipts x).pending = s.pending := rfl

/-! ### `State.withdraw` -/

@[simp] theorem State.exm_withdraw (s : State) (x : Sub) (p : Occ → Bool) : (s.withdraw x p).exm = s.exm := rfl
@[simp] theorem State.tmu_withdraw (s : State) (x : Sub) (p : Occ → Bool) : (s.withdraw x p).tmu = s.tmu := rfl
@[simp] theorem State.sbc_withdraw (s : State) (x : Sub) (p : Occ → Bool) : (s.withdraw x p).sbc = s.sbc := rfl
@[simp] theorem State.cmu_withdraw (s : State) (x : Sub) (p : Occ → Bool) : (s.withdraw x p).cmu = s.cmu := rfl
@[simp] theorem State.mbu_withdraw (s : State) (x : Sub) (p : Occ → Bool) : (s.withdraw x p).mbu = s.mbu := rfl
@[simp] theorem State.clu_withdraw (s : State) (x : Sub) (p : Occ → Bool) : (s.withdraw x p).clu = s.clu := rfl
@[simp] theorem State.txu_withdraw (s : State) (x : Sub) (p : Occ → Bool) : (s.withdraw x p).txu = s.txu := rfl
@[simp] theorem State.pwc_withdraw (s : State) (x : Sub) (p : Occ → Bool) : (s.withdraw x p).pwc = s.pwc := rfl
@[simp] theorem State.pins_withdraw (s : State) (x : Sub) (p : Occ → Bool) : (s.withdraw x p).pins = s.pins := rfl
@[simp] theorem State.pending_withdraw (s : State) (x : Sub) (p : Occ → Bool) : (s.withdraw x p).pending = s.pending := rfl

/-! ### `State.dropOccs` -/

@[simp] theorem State.exm_dropOccs (s : State) (p : Occ → Bool) : (s.dropOccs p).exm = s.exm := rfl
@[simp] theorem State.tmu_dropOccs (s : State) (p : Occ → Bool) : (s.dropOccs p).tmu = s.tmu := rfl
@[simp] theorem State.sbc_dropOccs (s : State) (p : Occ → Bool) : (s.dropOccs p).sbc = s.sbc := rfl
@[simp] theorem State.cmu_dropOccs (s : State) (p : Occ → Bool) : (s.dropOccs p).cmu = s.cmu := rfl
@[simp] theorem State.mbu_dropOccs (s : State) (p : Occ → Bool) : (s.dropOccs p).mbu = s.mbu := rfl
@[simp] theorem State.clu_dropOccs (s : State) (p : Occ → Bool) : (s.dropOccs p).clu = s.clu := rfl
@[simp] theorem State.txu_dropOccs (s : State) (p : Occ → Bool) : (s.dropOccs p).txu = s.txu := rfl
@[simp] theorem State.pwc_dropOccs (s : State) (p : Occ → Bool) : (s.dropOccs p).pwc = s.pwc := rfl
@[simp] theorem State.pins_dropOccs (s : State) (p : Occ → Bool) : (s.dropOccs p).pins = s.pins := rfl
@[simp] theorem State.pending_dropOccs (s : State) (p : Occ → Bool) : (s.dropOccs p).pending = s.pending := rfl

/-! ### `State.send` -/

@[simp] theorem State.exm_send (s : State) (c : RadioCommand) : (s.send c).exm = s.exm := rfl
@[simp] theorem State.tmu_send (s : State) (c : RadioCommand) : (s.send c).tmu = s.tmu := rfl
@[simp] theorem State.sbc_send (s : State) (c : RadioCommand) : (s.send c).sbc = s.sbc := rfl
@[simp] theorem State.cmu_send (s : State) (c : RadioCommand) : (s.send c).cmu = s.cmu := rfl
@[simp] theorem State.mbu_send (s : State) (c : RadioCommand) : (s.send c).mbu = s.mbu := rfl
@[simp] theorem State.clu_send (s : State) (c : RadioCommand) : (s.send c).clu = s.clu := rfl
@[simp] theorem State.txu_send (s : State) (c : RadioCommand) : (s.send c).txu = s.txu := rfl
@[simp] theorem State.pwc_send (s : State) (c : RadioCommand) : (s.send c).pwc = s.pwc := rfl
@[simp] theorem State.pins_send (s : State) (c : RadioCommand) : (s.send c).pins = s.pins := rfl
@[simp] theorem State.pending_send (s : State) (c : RadioCommand) : (s.send c).pending = s.pending := rfl

/-! ### `State.raise` -/

@[simp] theorem State.tmu_raise (s : State) (a : Area) : (s.raise a).tmu = s.tmu := rfl
@[simp] theorem State.rpl_raise (s : State) (a : Area) : (s.raise a).rpl = s.rpl := rfl
@[simp] theorem State.sbc_raise (s : State) (a : Area) : (s.raise a).sbc = s.sbc := rfl
@[simp] theorem State.cmu_raise (s : State) (a : Area) : (s.raise a).cmu = s.cmu := rfl
@[simp] theorem State.mbu_raise (s : State) (a : Area) : (s.raise a).mbu = s.mbu := rfl
@[simp] theorem State.clu_raise (s : State) (a : Area) : (s.raise a).clu = s.clu := rfl
@[simp] theorem State.txu_raise (s : State) (a : Area) : (s.raise a).txu = s.txu := rfl
@[simp] theorem State.pwc_raise (s : State) (a : Area) : (s.raise a).pwc = s.pwc := rfl
@[simp] theorem State.pins_raise (s : State) (a : Area) : (s.raise a).pins = s.pins := rfl
@[simp] theorem State.pending_raise (s : State) (a : Area) : (s.raise a).pending = s.pending := rfl

/-! ### `State.scanClear` -/

@[simp] theorem State.tmu_scanClear (s : State) (a : Area) : (s.scanClear a).tmu = s.tmu := rfl
@[simp] theorem State.rpl_scanClear (s : State) (a : Area) : (s.scanClear a).rpl = s.rpl := rfl
@[simp] theorem State.sbc_scanClear (s : State) (a : Area) : (s.scanClear a).sbc = s.sbc := rfl
@[simp] theorem State.cmu_scanClear (s : State) (a : Area) : (s.scanClear a).cmu = s.cmu := rfl
@[simp] theorem State.mbu_scanClear (s : State) (a : Area) : (s.scanClear a).mbu = s.mbu := rfl
@[simp] theorem State.clu_scanClear (s : State) (a : Area) : (s.scanClear a).clu = s.clu := rfl
@[simp] theorem State.txu_scanClear (s : State) (a : Area) : (s.scanClear a).txu = s.txu := rfl
@[simp] theorem State.pwc_scanClear (s : State) (a : Area) : (s.scanClear a).pwc = s.pwc := rfl
@[simp] theorem State.pins_scanClear (s : State) (a : Area) : (s.scanClear a).pins = s.pins := rfl
@[simp] theorem State.pending_scanClear (s : State) (a : Area) : (s.scanClear a).pending = s.pending := rfl

/-! ### `State.slowTicks` -/

@[simp] theorem State.exm_slowTicks (s : State) (n : Nat) : (s.slowTicks n).exm = s.exm := rfl
@[simp] theorem State.tmu_slowTicks (s : State) (n : Nat) : (s.slowTicks n).tmu = s.tmu := rfl
@[simp] theorem State.rpl_slowTicks (s : State) (n : Nat) : (s.slowTicks n).rpl = s.rpl := rfl
@[simp] theorem State.sbc_slowTicks (s : State) (n : Nat) : (s.slowTicks n).sbc = s.sbc := rfl
@[simp] theorem State.cmu_slowTicks (s : State) (n : Nat) : (s.slowTicks n).cmu = s.cmu := rfl
@[simp] theorem State.mbu_slowTicks (s : State) (n : Nat) : (s.slowTicks n).mbu = s.mbu := rfl
@[simp] theorem State.clu_slowTicks (s : State) (n : Nat) : (s.slowTicks n).clu = s.clu := rfl
@[simp] theorem State.txu_slowTicks (s : State) (n : Nat) : (s.slowTicks n).txu = s.txu := rfl
@[simp] theorem State.pins_slowTicks (s : State) (n : Nat) : (s.slowTicks n).pins = s.pins := rfl
@[simp] theorem State.pending_slowTicks (s : State) (n : Nat) : (s.slowTicks n).pending = s.pending := rfl

/-! ### The host port after a raise and a take -/

@[simp] theorem State.exm_mem_raise (s : State) (a : Area) : (s.raise a).exm.mem = s.exm.mem := rfl
@[simp] theorem State.exm_run_raise (s : State) (a : Area) : (s.raise a).exm.run = s.exm.run := rfl
@[simp] theorem State.exm_badSetup_raise (s : State) (a : Area) : (s.raise a).exm.badSetup = s.exm.badSetup := rfl
@[simp] theorem State.exm_enable_raise (s : State) (a : Area) : (s.raise a).exm.enable = s.exm.enable := rfl
@[simp] theorem State.exm_scan_raise (s : State) (a : Area) : (s.raise a).exm.scan = s.exm.scan := rfl
@[simp] theorem State.exm_latch_raise (s : State) (a : Area) : (s.raise a).exm.latch = s.exm.latch := rfl
@[simp] theorem State.exm_fault_raise (s : State) (a : Area) : (s.raise a).exm.fault = s.exm.fault := rfl
@[simp] theorem State.exm_readData_raise (s : State) (a : Area) : (s.raise a).exm.readData = s.exm.readData := rfl
@[simp] theorem State.exm_heldStop_raise (s : State) (a : Area) : (s.raise a).exm.heldStop = s.exm.heldStop := rfl
@[simp] theorem State.exm_attn_raise (s : State) (a : Area) : (s.raise a).exm.attn = s.exm.attn ||| areaMask a := rfl
@[simp] theorem State.exm_mem_scanClear (s : State) (a : Area) : (s.scanClear a).exm.mem = s.exm.mem := rfl
@[simp] theorem State.exm_run_scanClear (s : State) (a : Area) : (s.scanClear a).exm.run = s.exm.run := rfl
@[simp] theorem State.exm_badSetup_scanClear (s : State) (a : Area) : (s.scanClear a).exm.badSetup = s.exm.badSetup := rfl
@[simp] theorem State.exm_attn_scanClear (s : State) (a : Area) : (s.scanClear a).exm.attn = s.exm.attn := rfl
@[simp] theorem State.exm_enable_scanClear (s : State) (a : Area) : (s.scanClear a).exm.enable = s.exm.enable := rfl
@[simp] theorem State.exm_latch_scanClear (s : State) (a : Area) : (s.scanClear a).exm.latch = s.exm.latch := rfl
@[simp] theorem State.exm_fault_scanClear (s : State) (a : Area) : (s.scanClear a).exm.fault = s.exm.fault := rfl
@[simp] theorem State.exm_readData_scanClear (s : State) (a : Area) : (s.scanClear a).exm.readData = s.exm.readData := rfl
@[simp] theorem State.exm_heldStop_scanClear (s : State) (a : Area) : (s.scanClear a).exm.heldStop = s.exm.heldStop := rfl
@[simp] theorem State.exm_scan_scanClear (s : State) (a : Area) : (s.scanClear a).exm.scan = s.exm.scan &&& ~~~ (areaMask a) := rfl

/-! ### `State.raiseIf` -/

@[simp] theorem State.tmu_raiseIf (s : State) (b : Bool) (a : Area) : (s.raiseIf b a).tmu = s.tmu := by cases b <;> rfl
@[simp] theorem State.rpl_raiseIf (s : State) (b : Bool) (a : Area) : (s.raiseIf b a).rpl = s.rpl := by cases b <;> rfl
@[simp] theorem State.sbc_raiseIf (s : State) (b : Bool) (a : Area) : (s.raiseIf b a).sbc = s.sbc := by cases b <;> rfl
@[simp] theorem State.cmu_raiseIf (s : State) (b : Bool) (a : Area) : (s.raiseIf b a).cmu = s.cmu := by cases b <;> rfl
@[simp] theorem State.mbu_raiseIf (s : State) (b : Bool) (a : Area) : (s.raiseIf b a).mbu = s.mbu := by cases b <;> rfl
@[simp] theorem State.clu_raiseIf (s : State) (b : Bool) (a : Area) : (s.raiseIf b a).clu = s.clu := by cases b <;> rfl
@[simp] theorem State.txu_raiseIf (s : State) (b : Bool) (a : Area) : (s.raiseIf b a).txu = s.txu := by cases b <;> rfl
@[simp] theorem State.pwc_raiseIf (s : State) (b : Bool) (a : Area) : (s.raiseIf b a).pwc = s.pwc := by cases b <;> rfl
@[simp] theorem State.pins_raiseIf (s : State) (b : Bool) (a : Area) : (s.raiseIf b a).pins = s.pins := by cases b <;> rfl
@[simp] theorem State.pending_raiseIf (s : State) (b : Bool) (a : Area) : (s.raiseIf b a).pending = s.pending := by cases b <;> rfl
@[simp] theorem State.exm_mem_raiseIf (s : State) (b : Bool) (a : Area) : (s.raiseIf b a).exm.mem = s.exm.mem := by cases b <;> rfl
@[simp] theorem State.exm_run_raiseIf (s : State) (b : Bool) (a : Area) : (s.raiseIf b a).exm.run = s.exm.run := by cases b <;> rfl
@[simp] theorem State.exm_badSetup_raiseIf (s : State) (b : Bool) (a : Area) : (s.raiseIf b a).exm.badSetup = s.exm.badSetup := by cases b <;> rfl
@[simp] theorem State.exm_enable_raiseIf (s : State) (b : Bool) (a : Area) : (s.raiseIf b a).exm.enable = s.exm.enable := by cases b <;> rfl
@[simp] theorem State.exm_scan_raiseIf (s : State) (b : Bool) (a : Area) : (s.raiseIf b a).exm.scan = s.exm.scan := by cases b <;> rfl
@[simp] theorem State.exm_latch_raiseIf (s : State) (b : Bool) (a : Area) : (s.raiseIf b a).exm.latch = s.exm.latch := by cases b <;> rfl
@[simp] theorem State.exm_fault_raiseIf (s : State) (b : Bool) (a : Area) : (s.raiseIf b a).exm.fault = s.exm.fault := by cases b <;> rfl
@[simp] theorem State.exm_readData_raiseIf (s : State) (b : Bool) (a : Area) : (s.raiseIf b a).exm.readData = s.exm.readData := by cases b <;> rfl
@[simp] theorem State.exm_heldStop_raiseIf (s : State) (b : Bool) (a : Area) : (s.raiseIf b a).exm.heldStop = s.exm.heldStop := by cases b <;> rfl

/-! ### Updates of records -/

@[simp] theorem State.tmu_subUpd (s : State) (x : Sub) (f : SubRec → SubRec) : (s.subUpd x f).tmu = s.tmu := rfl
@[simp] theorem State.rpl_subUpd (s : State) (x : Sub) (f : SubRec → SubRec) : (s.subUpd x f).rpl = s.rpl := rfl
@[simp] theorem State.cmu_subUpd (s : State) (x : Sub) (f : SubRec → SubRec) : (s.subUpd x f).cmu = s.cmu := rfl
@[simp] theorem State.mbu_subUpd (s : State) (x : Sub) (f : SubRec → SubRec) : (s.subUpd x f).mbu = s.mbu := rfl
@[simp] theorem State.clu_subUpd (s : State) (x : Sub) (f : SubRec → SubRec) : (s.subUpd x f).clu = s.clu := rfl
@[simp] theorem State.txu_subUpd (s : State) (x : Sub) (f : SubRec → SubRec) : (s.subUpd x f).txu = s.txu := rfl
@[simp] theorem State.pwc_subUpd (s : State) (x : Sub) (f : SubRec → SubRec) : (s.subUpd x f).pwc = s.pwc := rfl
@[simp] theorem State.pins_subUpd (s : State) (x : Sub) (f : SubRec → SubRec) : (s.subUpd x f).pins = s.pins := rfl
@[simp] theorem State.pending_subUpd (s : State) (x : Sub) (f : SubRec → SubRec) : (s.subUpd x f).pending = s.pending := rfl

@[simp] theorem State.tmu_cellUpd (s : State) (x : Sub) (r : Fin 18) (f : CellRec → CellRec) : (s.cellUpd x r f).tmu = s.tmu := rfl
@[simp] theorem State.rpl_cellUpd (s : State) (x : Sub) (r : Fin 18) (f : CellRec → CellRec) : (s.cellUpd x r f).rpl = s.rpl := rfl
@[simp] theorem State.sbc_cellUpd (s : State) (x : Sub) (r : Fin 18) (f : CellRec → CellRec) : (s.cellUpd x r f).sbc = s.sbc := rfl
@[simp] theorem State.mbu_cellUpd (s : State) (x : Sub) (r : Fin 18) (f : CellRec → CellRec) : (s.cellUpd x r f).mbu = s.mbu := rfl
@[simp] theorem State.clu_cellUpd (s : State) (x : Sub) (r : Fin 18) (f : CellRec → CellRec) : (s.cellUpd x r f).clu = s.clu := rfl
@[simp] theorem State.txu_cellUpd (s : State) (x : Sub) (r : Fin 18) (f : CellRec → CellRec) : (s.cellUpd x r f).txu = s.txu := rfl
@[simp] theorem State.pwc_cellUpd (s : State) (x : Sub) (r : Fin 18) (f : CellRec → CellRec) : (s.cellUpd x r f).pwc = s.pwc := rfl
@[simp] theorem State.pins_cellUpd (s : State) (x : Sub) (r : Fin 18) (f : CellRec → CellRec) : (s.cellUpd x r f).pins = s.pins := rfl
@[simp] theorem State.pending_cellUpd (s : State) (x : Sub) (r : Fin 18) (f : CellRec → CellRec) : (s.cellUpd x r f).pending = s.pending := rfl

@[simp] theorem State.tmu_callUpd (s : State) (k : Fin 4) (f : CallRec → CallRec) : (s.callUpd k f).tmu = s.tmu := rfl
@[simp] theorem State.rpl_callUpd (s : State) (k : Fin 4) (f : CallRec → CallRec) : (s.callUpd k f).rpl = s.rpl := rfl
@[simp] theorem State.sbc_callUpd (s : State) (k : Fin 4) (f : CallRec → CallRec) : (s.callUpd k f).sbc = s.sbc := rfl
@[simp] theorem State.cmu_callUpd (s : State) (k : Fin 4) (f : CallRec → CallRec) : (s.callUpd k f).cmu = s.cmu := rfl
@[simp] theorem State.mbu_callUpd (s : State) (k : Fin 4) (f : CallRec → CallRec) : (s.callUpd k f).mbu = s.mbu := rfl
@[simp] theorem State.txu_callUpd (s : State) (k : Fin 4) (f : CallRec → CallRec) : (s.callUpd k f).txu = s.txu := rfl
@[simp] theorem State.pwc_callUpd (s : State) (k : Fin 4) (f : CallRec → CallRec) : (s.callUpd k f).pwc = s.pwc := rfl
@[simp] theorem State.pins_callUpd (s : State) (k : Fin 4) (f : CallRec → CallRec) : (s.callUpd k f).pins = s.pins := rfl
@[simp] theorem State.pending_callUpd (s : State) (k : Fin 4) (f : CallRec → CallRec) : (s.callUpd k f).pending = s.pending := rfl

@[simp] theorem State.tmu_callStatusUpd (s : State) (k : Fin 4) (f : CallRec → CallRec) : (s.callStatusUpd k f).tmu = s.tmu := by simp [State.callStatusUpd]
@[simp] theorem State.rpl_callStatusUpd (s : State) (k : Fin 4) (f : CallRec → CallRec) : (s.callStatusUpd k f).rpl = s.rpl := by simp [State.callStatusUpd]
@[simp] theorem State.sbc_callStatusUpd (s : State) (k : Fin 4) (f : CallRec → CallRec) : (s.callStatusUpd k f).sbc = s.sbc := by simp [State.callStatusUpd]
@[simp] theorem State.cmu_callStatusUpd (s : State) (k : Fin 4) (f : CallRec → CallRec) : (s.callStatusUpd k f).cmu = s.cmu := by simp [State.callStatusUpd]
@[simp] theorem State.mbu_callStatusUpd (s : State) (k : Fin 4) (f : CallRec → CallRec) : (s.callStatusUpd k f).mbu = s.mbu := by simp [State.callStatusUpd]
@[simp] theorem State.txu_callStatusUpd (s : State) (k : Fin 4) (f : CallRec → CallRec) : (s.callStatusUpd k f).txu = s.txu := by simp [State.callStatusUpd]
@[simp] theorem State.pwc_callStatusUpd (s : State) (k : Fin 4) (f : CallRec → CallRec) : (s.callStatusUpd k f).pwc = s.pwc := by simp [State.callStatusUpd]
@[simp] theorem State.pins_callStatusUpd (s : State) (k : Fin 4) (f : CallRec → CallRec) : (s.callStatusUpd k f).pins = s.pins := by simp [State.callStatusUpd]
@[simp] theorem State.pending_callStatusUpd (s : State) (k : Fin 4) (f : CallRec → CallRec) : (s.callStatusUpd k f).pending = s.pending := by simp [State.callStatusUpd]

@[simp] theorem State.tmu_slotUpd (s : State) (i : Fin 8) (b : Bool) (f : OutSlot → OutSlot) : (s.slotUpd i b f).tmu = s.tmu := by simp [State.slotUpd]
@[simp] theorem State.rpl_slotUpd (s : State) (i : Fin 8) (b : Bool) (f : OutSlot → OutSlot) : (s.slotUpd i b f).rpl = s.rpl := by simp [State.slotUpd]
@[simp] theorem State.sbc_slotUpd (s : State) (i : Fin 8) (b : Bool) (f : OutSlot → OutSlot) : (s.slotUpd i b f).sbc = s.sbc := by simp [State.slotUpd]
@[simp] theorem State.cmu_slotUpd (s : State) (i : Fin 8) (b : Bool) (f : OutSlot → OutSlot) : (s.slotUpd i b f).cmu = s.cmu := by simp [State.slotUpd]
@[simp] theorem State.mbu_slotUpd (s : State) (i : Fin 8) (b : Bool) (f : OutSlot → OutSlot) : (s.slotUpd i b f).mbu = s.mbu := by simp [State.slotUpd]
@[simp] theorem State.clu_slotUpd (s : State) (i : Fin 8) (b : Bool) (f : OutSlot → OutSlot) : (s.slotUpd i b f).clu = s.clu := by simp [State.slotUpd]
@[simp] theorem State.pwc_slotUpd (s : State) (i : Fin 8) (b : Bool) (f : OutSlot → OutSlot) : (s.slotUpd i b f).pwc = s.pwc := by simp [State.slotUpd]
@[simp] theorem State.pins_slotUpd (s : State) (i : Fin 8) (b : Bool) (f : OutSlot → OutSlot) : (s.slotUpd i b f).pins = s.pins := by simp [State.slotUpd]
@[simp] theorem State.pending_slotUpd (s : State) (i : Fin 8) (b : Bool) (f : OutSlot → OutSlot) : (s.slotUpd i b f).pending = s.pending := by simp [State.slotUpd]

@[simp] theorem State.tmu_powerUpd (s : State) (b : Bool) (f : Pwc → Pwc) : (s.powerUpd b f).tmu = s.tmu := by simp [State.powerUpd]
@[simp] theorem State.rpl_powerUpd (s : State) (b : Bool) (f : Pwc → Pwc) : (s.powerUpd b f).rpl = s.rpl := by simp [State.powerUpd]
@[simp] theorem State.sbc_powerUpd (s : State) (b : Bool) (f : Pwc → Pwc) : (s.powerUpd b f).sbc = s.sbc := by simp [State.powerUpd]
@[simp] theorem State.cmu_powerUpd (s : State) (b : Bool) (f : Pwc → Pwc) : (s.powerUpd b f).cmu = s.cmu := by simp [State.powerUpd]
@[simp] theorem State.mbu_powerUpd (s : State) (b : Bool) (f : Pwc → Pwc) : (s.powerUpd b f).mbu = s.mbu := by simp [State.powerUpd]
@[simp] theorem State.clu_powerUpd (s : State) (b : Bool) (f : Pwc → Pwc) : (s.powerUpd b f).clu = s.clu := by simp [State.powerUpd]
@[simp] theorem State.txu_powerUpd (s : State) (b : Bool) (f : Pwc → Pwc) : (s.powerUpd b f).txu = s.txu := by simp [State.powerUpd]
@[simp] theorem State.pins_powerUpd (s : State) (b : Bool) (f : Pwc → Pwc) : (s.powerUpd b f).pins = s.pins := by simp [State.powerUpd]
@[simp] theorem State.pending_powerUpd (s : State) (b : Bool) (f : Pwc → Pwc) : (s.powerUpd b f).pending = s.pending := by simp [State.powerUpd]

@[simp] theorem State.tmu_faultUpd (s : State) (f : FaultRecord → FaultRecord) : (s.faultUpd f).tmu = s.tmu := rfl
@[simp] theorem State.rpl_faultUpd (s : State) (f : FaultRecord → FaultRecord) : (s.faultUpd f).rpl = s.rpl := rfl
@[simp] theorem State.sbc_faultUpd (s : State) (f : FaultRecord → FaultRecord) : (s.faultUpd f).sbc = s.sbc := rfl
@[simp] theorem State.cmu_faultUpd (s : State) (f : FaultRecord → FaultRecord) : (s.faultUpd f).cmu = s.cmu := rfl
@[simp] theorem State.mbu_faultUpd (s : State) (f : FaultRecord → FaultRecord) : (s.faultUpd f).mbu = s.mbu := rfl
@[simp] theorem State.clu_faultUpd (s : State) (f : FaultRecord → FaultRecord) : (s.faultUpd f).clu = s.clu := rfl
@[simp] theorem State.txu_faultUpd (s : State) (f : FaultRecord → FaultRecord) : (s.faultUpd f).txu = s.txu := rfl
@[simp] theorem State.pwc_faultUpd (s : State) (f : FaultRecord → FaultRecord) : (s.faultUpd f).pwc = s.pwc := rfl
@[simp] theorem State.pins_faultUpd (s : State) (f : FaultRecord → FaultRecord) : (s.faultUpd f).pins = s.pins := rfl
@[simp] theorem State.pending_faultUpd (s : State) (f : FaultRecord → FaultRecord) : (s.faultUpd f).pending = s.pending := rfl

@[simp] theorem State.tmu_subSet (s : State) (x : Sub) (f : SubRec → SubRec) : (s.subSet x f).tmu = s.tmu := by unfold State.subSet; split <;> rfl
@[simp] theorem State.rpl_subSet (s : State) (x : Sub) (f : SubRec → SubRec) : (s.subSet x f).rpl = s.rpl := by unfold State.subSet; split <;> rfl
@[simp] theorem State.cmu_subSet (s : State) (x : Sub) (f : SubRec → SubRec) : (s.subSet x f).cmu = s.cmu := by unfold State.subSet; split <;> rfl
@[simp] theorem State.mbu_subSet (s : State) (x : Sub) (f : SubRec → SubRec) : (s.subSet x f).mbu = s.mbu := by unfold State.subSet; split <;> rfl
@[simp] theorem State.clu_subSet (s : State) (x : Sub) (f : SubRec → SubRec) : (s.subSet x f).clu = s.clu := by unfold State.subSet; split <;> rfl
@[simp] theorem State.txu_subSet (s : State) (x : Sub) (f : SubRec → SubRec) : (s.subSet x f).txu = s.txu := by unfold State.subSet; split <;> rfl
@[simp] theorem State.pwc_subSet (s : State) (x : Sub) (f : SubRec → SubRec) : (s.subSet x f).pwc = s.pwc := by unfold State.subSet; split <;> rfl
@[simp] theorem State.pins_subSet (s : State) (x : Sub) (f : SubRec → SubRec) : (s.subSet x f).pins = s.pins := by unfold State.subSet; split <;> rfl
@[simp] theorem State.pending_subSet (s : State) (x : Sub) (f : SubRec → SubRec) : (s.subSet x f).pending = s.pending := by unfold State.subSet; split <;> rfl

@[simp] theorem State.tmu_cellSet (s : State) (x : Sub) (r : Fin 18) (f : CellRec → CellRec) : (s.cellSet x r f).tmu = s.tmu := by unfold State.cellSet; split <;> rfl
@[simp] theorem State.rpl_cellSet (s : State) (x : Sub) (r : Fin 18) (f : CellRec → CellRec) : (s.cellSet x r f).rpl = s.rpl := by unfold State.cellSet; split <;> rfl
@[simp] theorem State.sbc_cellSet (s : State) (x : Sub) (r : Fin 18) (f : CellRec → CellRec) : (s.cellSet x r f).sbc = s.sbc := by unfold State.cellSet; split <;> rfl
@[simp] theorem State.mbu_cellSet (s : State) (x : Sub) (r : Fin 18) (f : CellRec → CellRec) : (s.cellSet x r f).mbu = s.mbu := by unfold State.cellSet; split <;> rfl
@[simp] theorem State.clu_cellSet (s : State) (x : Sub) (r : Fin 18) (f : CellRec → CellRec) : (s.cellSet x r f).clu = s.clu := by unfold State.cellSet; split <;> rfl
@[simp] theorem State.txu_cellSet (s : State) (x : Sub) (r : Fin 18) (f : CellRec → CellRec) : (s.cellSet x r f).txu = s.txu := by unfold State.cellSet; split <;> rfl
@[simp] theorem State.pwc_cellSet (s : State) (x : Sub) (r : Fin 18) (f : CellRec → CellRec) : (s.cellSet x r f).pwc = s.pwc := by unfold State.cellSet; split <;> rfl
@[simp] theorem State.pins_cellSet (s : State) (x : Sub) (r : Fin 18) (f : CellRec → CellRec) : (s.cellSet x r f).pins = s.pins := by unfold State.cellSet; split <;> rfl
@[simp] theorem State.pending_cellSet (s : State) (x : Sub) (r : Fin 18) (f : CellRec → CellRec) : (s.cellSet x r f).pending = s.pending := by unfold State.cellSet; split <;> rfl

@[simp] theorem State.tmu_linkUpd (s : State) (m n : Nat) : (s.linkUpd m n).tmu = s.tmu := by unfold State.linkUpd; split <;> rfl
@[simp] theorem State.sbc_linkUpd (s : State) (m n : Nat) : (s.linkUpd m n).sbc = s.sbc := by unfold State.linkUpd; split <;> rfl
@[simp] theorem State.cmu_linkUpd (s : State) (m n : Nat) : (s.linkUpd m n).cmu = s.cmu := by unfold State.linkUpd; split <;> rfl
@[simp] theorem State.mbu_linkUpd (s : State) (m n : Nat) : (s.linkUpd m n).mbu = s.mbu := by unfold State.linkUpd; split <;> rfl
@[simp] theorem State.clu_linkUpd (s : State) (m n : Nat) : (s.linkUpd m n).clu = s.clu := by unfold State.linkUpd; split <;> rfl
@[simp] theorem State.txu_linkUpd (s : State) (m n : Nat) : (s.linkUpd m n).txu = s.txu := by unfold State.linkUpd; split <;> rfl
@[simp] theorem State.pwc_linkUpd (s : State) (m n : Nat) : (s.linkUpd m n).pwc = s.pwc := by unfold State.linkUpd; split <;> rfl
@[simp] theorem State.pins_linkUpd (s : State) (m n : Nat) : (s.linkUpd m n).pins = s.pins := by unfold State.linkUpd; split <;> rfl
@[simp] theorem State.pending_linkUpd (s : State) (m n : Nat) : (s.linkUpd m n).pending = s.pending := by unfold State.linkUpd; split <;> rfl

@[simp] theorem State.tmu_setPower (s : State) (p : Power) : (s.setPower p).tmu = s.tmu := by unfold State.setPower; split <;> simp
@[simp] theorem State.rpl_setPower (s : State) (p : Power) : (s.setPower p).rpl = s.rpl := by unfold State.setPower; split <;> simp
@[simp] theorem State.sbc_setPower (s : State) (p : Power) : (s.setPower p).sbc = s.sbc := by unfold State.setPower; split <;> simp
@[simp] theorem State.cmu_setPower (s : State) (p : Power) : (s.setPower p).cmu = s.cmu := by unfold State.setPower; split <;> simp
@[simp] theorem State.mbu_setPower (s : State) (p : Power) : (s.setPower p).mbu = s.mbu := by unfold State.setPower; split <;> simp
@[simp] theorem State.clu_setPower (s : State) (p : Power) : (s.setPower p).clu = s.clu := by unfold State.setPower; split <;> simp
@[simp] theorem State.txu_setPower (s : State) (p : Power) : (s.setPower p).txu = s.txu := by unfold State.setPower; split <;> simp
@[simp] theorem State.pins_setPower (s : State) (p : Power) : (s.setPower p).pins = s.pins := by unfold State.setPower; split <;> simp
@[simp] theorem State.pending_setPower (s : State) (p : Power) : (s.setPower p).pending = s.pending := by unfold State.setPower; split <;> simp

/-! ### Readers after writers -/

@[simp] theorem State.ctx_modCtx_same (s : State) (c : Fin 3) (f : Ctx → Ctx) : (s.modCtx c f).ctx c = f (s.ctx c) := by
  simp [State.ctx, State.modCtx]
@[simp] theorem State.ctx_modCtx_other (s : State) {c d : Fin 3} (h : d ≠ c) (f : Ctx → Ctx) :
    (s.modCtx c f).ctx d = s.ctx d := by
  simp only [State.ctx, State.modCtx, Fin.getElem_fin]
  exact Vector.getElem_set_ne _ _ (fun e => h (Fin.ext e.symm))
@[simp] theorem State.call_modCall_same (s : State) (k : Fin 4) (f : Call → Call) :
    (s.modCall k f).call k = f (s.call k) := by
  simp [State.call, State.modCall]
@[simp] theorem State.call_modCall_other (s : State) {k j : Fin 4} (h : j ≠ k) (f : Call → Call) :
    (s.modCall k f).call j = s.call j := by
  simp only [State.call, State.modCall, Fin.getElem_fin]
  exact Vector.getElem_set_ne _ _ (fun e => h (Fin.ext e.symm))
@[simp] theorem State.slot_modSlot_same (s : State) (i : Fin 8) (f : OutSlot → OutSlot) :
    (s.modSlot i f).slot i = f (s.slot i) := by
  simp [State.slot, State.modSlot]
@[simp] theorem State.slot_modSlot_other (s : State) {i j : Fin 8} (h : j ≠ i) (f : OutSlot → OutSlot) :
    (s.modSlot i f).slot j = s.slot j := by
  simp only [State.slot, State.modSlot, Fin.getElem_fin]
  exact Vector.getElem_set_ne _ _ (fun e => h (Fin.ext e.symm))
@[simp] theorem State.side_modSide_same (s : State) (x : Sub) (f : SendSide → SendSide) :
    (s.modSide x f).side x = f (s.side x) := by
  simp [State.side, State.modSide]
@[simp] theorem State.side_modSide_other (s : State) {x y : Sub} (h : y ≠ x) (f : SendSide → SendSide) :
    (s.modSide x f).side y = s.side y := by
  simp [State.side, State.modSide, h]
@[simp] theorem State.sub_modSbc_same (s : State) (x : Sub) (f : SbcX → SbcX) :
    (s.modSbc x f).sub x = (f (s.sbc.get x)).part := by
  simp [State.sub, State.modSbc]
@[simp] theorem State.sub_modSbc_other (s : State) {x y : Sub} (h : y ≠ x) (f : SbcX → SbcX) :
    (s.modSbc x f).sub y = s.sub y := by
  simp [State.sub, State.modSbc, h]
@[simp] theorem State.sub_subUpd_same (s : State) (x : Sub) (f : SubRec → SubRec) :
    (s.subUpd x f).sub x = { f (s.sub x) with change := (s.sub x).change + 1 } := by
  simp [State.subUpd, State.sub, State.modSbc, State.raise]
@[simp] theorem State.sub_subUpd_other (s : State) {x y : Sub} (h : y ≠ x) (f : SubRec → SubRec) :
    (s.subUpd x f).sub y = s.sub y := by
  simp [State.subUpd, State.sub, State.modSbc, State.raise, h]
@[simp] theorem State.machine_modMachine_same (s : State) (x : Sub) (f : HoMachine → HoMachine) :
    (s.modMachine x f).machine x = f (s.machine x) := by
  simp [State.machine, State.modMachine, State.modMbu]
@[simp] theorem State.machine_modMachine_other (s : State) {x y : Sub} (h : y ≠ x) (f : HoMachine → HoMachine) :
    (s.modMachine x f).machine y = s.machine y := by
  simp [State.machine, State.modMachine, State.modMbu, h]
@[simp] theorem State.cell_modCell_same (s : State) (x : Sub) (r : Fin 18) (f : CellRec → CellRec) :
    (s.modCell x r f).cell x r = f (s.cell x r) := by
  simp [State.cell, State.modCell, State.modTable]
@[simp] theorem State.cell_modCell_other (s : State) (x : Sub) {r q : Fin 18} (h : q ≠ r) (f : CellRec → CellRec) :
    (s.modCell x r f).cell x q = s.cell x q := by
  simp only [State.cell, State.modCell, State.modTable, Pair.get_set_same, Fin.getElem_fin]
  exact Vector.getElem_set_ne _ _ (fun e => h (Fin.ext e.symm))
@[simp] theorem State.cell_modCell_sub (s : State) {x y : Sub} (h : y ≠ x) (r q : Fin 18) (f : CellRec → CellRec) :
    (s.modCell x r f).cell y q = s.cell y q := by
  simp [State.cell, State.modCell, State.modTable, h]
theorem State.cell_modCtx (s : State) (c : Fin 3) (f : Ctx → Ctx) (x : Sub) (r : Fin 18) :
    (s.modCtx c f).cell x r = s.cell x r := rfl
theorem State.side_modSlot (s : State) (i : Fin 8) (f : OutSlot → OutSlot) (x : Sub) :
    (s.modSlot i f).side x = s.side x := rfl
theorem State.slot_modSide (s : State) (x : Sub) (f : SendSide → SendSide) (i : Fin 8) :
    (s.modSide x f).slot i = s.slot i := rfl
theorem State.side_slotUpd (s : State) (i : Fin 8) (b : Bool) (f : OutSlot → OutSlot) (x : Sub) :
    (s.slotUpd i b f).side x = s.side x := by cases b <;> rfl
@[simp] theorem State.cell_cellUpd_same (s : State) (x : Sub) (r : Fin 18) (f : CellRec → CellRec) :
    (s.cellUpd x r f).cell x r = { f (s.cell x r) with change := (s.cell x r).change + 1 } := by
  simp [State.cellUpd, State.cell, State.modCell, State.modTable, State.raise]
@[simp] theorem State.call_callUpd_same (s : State) (k : Fin 4) (f : CallRec → CallRec) :
    ((s.callUpd k f).call k).part = { f (s.call k).part with change := (s.call k).part.change + 1 } := by
  simp [State.callUpd, State.call, State.modCall, State.raise]
@[simp] theorem State.call_callUpd_other (s : State) {k j : Fin 4} (h : j ≠ k) (f : CallRec → CallRec) :
    (s.callUpd k f).call j = s.call j := by
  have e := State.call_modCall_other s h fun c => { c with part := { f c.part with change := c.part.change + 1 } }
  exact e
@[simp] theorem State.slot_slotUpd_same (s : State) (i : Fin 8) (b : Bool) (f : OutSlot → OutSlot) :
    (s.slotUpd i b f).slot i = { f (s.slot i) with change := (s.slot i).change + 1 } := by
  cases b <;> simp [State.slotUpd, State.slot, State.modSlot, State.raiseIf, State.raise]

/-- An update made only where it changes the record leaves the record as the update's function has it, its change count
apart. -/
theorem State.sub_subSet (s : State) (x : Sub) (f : SubRec → SubRec) :
    (s.subSet x f).sub x = f (s.sub x) ∨ (s.subSet x f).sub x = { f (s.sub x) with change := (s.sub x).change + 1 } := by
  unfold State.subSet
  split
  · next h => exact .inl h.symm
  · exact .inr (State.sub_subUpd_same s x f)

end Sys2Proof.Machine
end

