-- ==== Sys2Proof/Laws/Frame.lean ====
section
/-! SUPPORT. The frame of the blocks' operations: none of them touches host-written memory, the registers the host writes, the
scan-pending mask, the fault record, the pins, the queue, the clocks, the power state or the link status. -/

set_option linter.unreachableTactic false
set_option linter.unusedTactic false

namespace Sys2Proof.Machine

/-- What no operation of the blocks touches. -/
structure Outer where
  mem       : List Host.Cell
  run       : RunState
  badSetup  : Bool
  enable    : BitVec 9
  scan      : BitVec 9
  latch     : BitVec 16
  fault     : FaultRecord
  readData  : Word
  heldStop  : Bool
  pins      : Pins
  pending   : List Instr
  localTime : Nat
  refCycles : Nat
  power     : Power
  permit    : Permit
  maxSleep  : Nat
  timer     : Nat
  target    : Nat
  usedDrift : Int
  wakeEnd   : Nat
  inhibit   : Bool
  idleDue   : Bool
  sent      : List RadioCommand
  total     : Nat
  silent    : Nat

/-- The state's outer part. -/
def State.outer (s : State) : Outer :=
  { mem := s.exm.mem, run := s.exm.run, badSetup := s.exm.badSetup, enable := s.exm.enable, scan := s.exm.scan,
    latch := s.exm.latch, fault := s.exm.fault, readData := s.exm.readData, heldStop := s.exm.heldStop, pins := s.pins,
    pending := s.pending, localTime := s.tmu.localTime, refCycles := s.tmu.refCycles, power := s.pwc.state,
    permit := s.pwc.permit, maxSleep := s.pwc.maxSleep, timer := s.pwc.timer, target := s.pwc.target,
    usedDrift := s.pwc.usedDrift, wakeEnd := s.pwc.wakeEnd, inhibit := s.rpl.inhibit, idleDue := s.rpl.idleDue,
    sent := s.rpl.sent, total := s.rpl.totalSilent, silent := s.rpl.runSilent }

theorem outer_foldl {α : Type} {f : State → α → State} (h : ∀ s a, (f s a).outer = s.outer) (l : List α) (s : State) :
    (l.foldl f s).outer = s.outer := by
  induction l generalizing s with
  | nil => rfl
  | cons a l ih => exact (ih (f s a)).trans (h s a)

theorem outer_foldl_pair {α β : Type} {f : State × β → α → State × β} (h : ∀ p a, (f p a).1.outer = p.1.outer)
    (l : List α) (p : State × β) : (l.foldl f p).1.outer = p.1.outer := by
  induction l generalizing p with
  | nil => rfl
  | cons a l ih => exact (ih (f p a)).trans (h p a)

/-! ### Updates -/

@[simp] theorem outer_modCtx (s : State) (c : Fin 3) (f : Ctx → Ctx) : (s.modCtx c f).outer = s.outer := (rfl)
@[simp] theorem outer_modSbc (s : State) (x : Sub) (f : SbcX → SbcX) : (s.modSbc x f).outer = s.outer := (rfl)
@[simp] theorem outer_modTable (s : State) (x : Sub) (f : CellTable → CellTable) : (s.modTable x f).outer = s.outer := (rfl)
@[simp] theorem outer_modCell (s : State) (x : Sub) (r : Fin 18) (f : CellRec → CellRec) :
    (s.modCell x r f).outer = s.outer := (rfl)
@[simp] theorem outer_modMbu (s : State) (x : Sub) (f : MbuX → MbuX) : (s.modMbu x f).outer = s.outer := (rfl)
@[simp] theorem outer_modMachine (s : State) (x : Sub) (f : HoMachine → HoMachine) :
    (s.modMachine x f).outer = s.outer := (rfl)
@[simp] theorem outer_modCall (s : State) (k : Fin 4) (f : Call → Call) : (s.modCall k f).outer = s.outer := (rfl)
@[simp] theorem outer_modSlot (s : State) (i : Fin 8) (f : OutSlot → OutSlot) : (s.modSlot i f).outer = s.outer := (rfl)
@[simp] theorem outer_modSide (s : State) (x : Sub) (f : SendSide → SendSide) : (s.modSide x f).outer = s.outer := (rfl)
@[simp] theorem outer_modReasm (s : State) (i : Fin 4) (f : Reasm → Reasm) : (s.modReasm i f).outer = s.outer := (rfl)
@[simp] theorem outer_modInbox (s : State) (i : Fin 8) (f : InSlot → InSlot) : (s.modInbox i f).outer = s.outer := (rfl)
@[simp] theorem outer_raise (s : State) (a : Area) : (s.raise a).outer = s.outer := (rfl)
@[simp] theorem outer_raiseIf (s : State) (b : Bool) (a : Area) : (s.raiseIf b a).outer = s.outer := by cases b <;> rfl
@[simp] theorem outer_subUpd (s : State) (x : Sub) (f : SubRec → SubRec) : (s.subUpd x f).outer = s.outer := (rfl)
@[simp] theorem outer_subSet (s : State) (x : Sub) (f : SubRec → SubRec) : (s.subSet x f).outer = s.outer := by
  unfold State.subSet; split <;> rfl
@[simp] theorem outer_cellUpd (s : State) (x : Sub) (r : Fin 18) (f : CellRec → CellRec) :
    (s.cellUpd x r f).outer = s.outer := (rfl)
@[simp] theorem outer_cellSet (s : State) (x : Sub) (r : Fin 18) (f : CellRec → CellRec) :
    (s.cellSet x r f).outer = s.outer := by
  unfold State.cellSet; split <;> rfl
@[simp] theorem outer_callUpd (s : State) (k : Fin 4) (f : CallRec → CallRec) : (s.callUpd k f).outer = s.outer := (rfl)
@[simp] theorem outer_callStatusUpd (s : State) (k : Fin 4) (f : CallRec → CallRec) :
    (s.callStatusUpd k f).outer = s.outer := by simp [State.callStatusUpd]
@[simp] theorem outer_slotUpd (s : State) (i : Fin 8) (b : Bool) (f : OutSlot → OutSlot) :
    (s.slotUpd i b f).outer = s.outer := by simp [State.slotUpd]
@[simp] theorem outer_withdraw (s : State) (x : Sub) (p : Occ → Bool) : (s.withdraw x p).outer = s.outer := (rfl)
@[simp] theorem outer_withdrawAll (s : State) (x : Sub) : (s.withdrawAll x).outer = s.outer := (rfl)
@[simp] theorem outer_dropOccs (s : State) (p : Occ → Bool) : (s.dropOccs p).outer = s.outer := (rfl)
@[simp] theorem outer_refresh (s : State) : s.refresh.outer = s.outer := (rfl)
@[simp] theorem outer_clearMarks (s : State) : s.clearMarks.outer = s.outer := (rfl)

theorem State.now_of_outer {s t : State} (h : t.outer = s.outer) : t.now = s.now := congrArg Outer.localTime h
theorem State.mem_of_outer {s t : State} (h : t.outer = s.outer) : t.exm.mem = s.exm.mem := congrArg Outer.mem h
theorem State.working_of_outer {s t : State} (h : t.outer = s.outer) : t.working = s.working := by
  have a := congrArg Outer.run h
  have b := congrArg Outer.power h
  have c := congrArg Outer.pins h
  simp only [State.outer] at a b c
  simp only [State.working, a, b, c]

/-! ### The operations, in the order of their files -/

/-! ### Texts -/

@[simp] theorem outer_promote (s : State) (x : Sub) :
    (State.promote s x).outer = s.outer := by
  unfold State.promote
  repeat' first
    | with_reducible rfl
    | split
    | simp
    | (with_reducible refine (outer_foldl ?_ _ _).trans ?_; intro _ _)
    | rfl

@[simp] theorem outer_leaveQueue (s : State) (x : Sub) (i : Fin 8) :
    (State.leaveQueue s x i).outer = s.outer := by
  unfold State.leaveQueue
  repeat' first
    | with_reducible rfl
    | split
    | simp
    | (with_reducible refine (outer_foldl ?_ _ _).trans ?_; intro _ _)
    | rfl

@[simp] theorem outer_finishHead (s : State) (x : Sub) (st : OutState) (f : OutSlot → OutSlot) :
    (State.finishHead s x st f).outer = s.outer := by
  unfold State.finishHead
  repeat' first
    | with_reducible rfl
    | split
    | simp
    | (with_reducible refine (outer_foldl ?_ _ _).trans ?_; intro _ _)
    | rfl

@[simp] theorem outer_failHead (s : State) (x : Sub) (c : FailCause) :
    (State.failHead s x c).outer = s.outer := by
  unfold State.failHead
  repeat' first
    | with_reducible rfl
    | split
    | simp
    | (with_reducible refine (outer_foldl ?_ _ _).trans ?_; intro _ _)
    | rfl

@[simp] theorem outer_abandon (s : State) (x : Sub) :
    (State.abandon s x).outer = s.outer := by
  unfold State.abandon
  repeat' first
    | with_reducible rfl
    | split
    | simp
    | (with_reducible refine (outer_foldl ?_ _ _).trans ?_; intro _ _)
    | rfl

@[simp] theorem outer_attemptFailed (s : State) (x : Sub) (e : Frame) :
    (State.attemptFailed s x e).outer = s.outer := by
  unfold State.attemptFailed
  repeat' first
    | with_reducible rfl
    | split
    | simp
    | (with_reducible refine (outer_foldl ?_ _ _).trans ?_; intro _ _)
    | rfl

@[simp] theorem outer_closeWindow (s : State) (x : Sub) (g : Frame) :
    (State.closeWindow s x g).outer = s.outer := by
  unfold State.closeWindow
  repeat' first
    | with_reducible rfl
    | split
    | simp
    | (with_reducible refine (outer_foldl ?_ _ _).trans ?_; intro _ _)
    | rfl

@[simp] theorem outer_segmentOutcome (s : State) (x : Sub) (h : Handle) (ref : Ref) (e : Ending) :
    (State.segmentOutcome s x h ref e).outer = s.outer := by
  unfold State.segmentOutcome
  repeat' first
    | with_reducible rfl
    | split
    | simp
    | (with_reducible refine (outer_foldl ?_ _ _).trans ?_; intro _ _)
    | rfl

@[simp] theorem outer_takeAck (s : State) (x : Sub) (f : Frame) (ref : Ref) (index : Nat) :
    (State.takeAck s x f ref index).outer = s.outer := by
  unfold State.takeAck
  repeat' first
    | with_reducible rfl
    | split
    | simp
    | (with_reducible refine (outer_foldl ?_ _ _).trans ?_; intro _ _)
    | rfl

@[simp] theorem outer_keepOut (s : State) (x : Sub) :
    (State.keepOut s x).outer = s.outer := by
  unfold State.keepOut
  repeat' first
    | with_reducible rfl
    | split
    | simp
    | (with_reducible refine (outer_foldl ?_ _ _).trans ?_; intro _ _)
    | rfl

@[simp] theorem outer_pauseHead (s : State) (x : Sub) :
    (State.pauseHead s x).outer = s.outer := by
  unfold State.pauseHead
  repeat' first
    | with_reducible rfl
    | split
    | simp
    | (with_reducible refine (outer_foldl ?_ _ _).trans ?_; intro _ _)
    | rfl

@[simp] theorem outer_resumeHead (s : State) (x : Sub) :
    (State.resumeHead s x).outer = s.outer := by
  unfold State.resumeHead
  repeat' first
    | with_reducible rfl
    | split
    | simp
    | (with_reducible refine (outer_foldl ?_ _ _).trans ?_; intro _ _)
    | rfl

@[simp] theorem outer_restartHead (s : State) (x : Sub) :
    (State.restartHead s x).outer = s.outer := by
  unfold State.restartHead
  repeat' first
    | with_reducible rfl
    | split
    | simp
    | (with_reducible refine (outer_foldl ?_ _ _).trans ?_; intro _ _)
    | rfl

@[simp] theorem outer_textsBack (s : State) (x : Sub) (changed : Bool) :
    (State.textsBack s x changed).outer = s.outer := by
  unfold State.textsBack
  repeat' first
    | with_reducible rfl
    | split
    | simp
    | (with_reducible refine (outer_foldl ?_ _ _).trans ?_; intro _ _)
    | rfl

@[simp] theorem outer_textsLost (s : State) (x : Sub) :
    (State.textsLost s x).outer = s.outer := by
  unfold State.textsLost
  repeat' first
    | with_reducible rfl
    | split
    | simp
    | (with_reducible refine (outer_foldl ?_ _ _).trans ?_; intro _ _)
    | rfl

@[simp] theorem outer_failQueue (s : State) (x : Sub) (c : FailCause) :
    (State.failQueue s x c).outer = s.outer := by
  unfold State.failQueue
  repeat' first
    | with_reducible rfl
    | split
    | simp
    | (with_reducible refine (outer_foldl ?_ _ _).trans ?_; intro _ _)
    | rfl

@[simp] theorem outer_dropReasm (s : State) (p : Reasm → Bool) :
    (State.dropReasm s p).outer = s.outer := by
  unfold State.dropReasm
  repeat' first
    | with_reducible rfl
    | split
    | simp
    | (with_reducible refine (outer_foldl ?_ _ _).trans ?_; intro _ _)
    | rfl

@[simp] theorem outer_dropCollecting (s : State) (x : Sub) :
    (State.dropCollecting s x).outer = s.outer := by
  unfold State.dropCollecting
  repeat' first
    | with_reducible rfl
    | split
    | simp
    | (with_reducible refine (outer_foldl ?_ _ _).trans ?_; intro _ _)
    | rfl

@[simp] theorem outer_deliverOne (s : State) :
    (State.deliverOne s).outer = s.outer := by
  unfold State.deliverOne
  repeat' first
    | with_reducible rfl
    | split
    | simp
    | (with_reducible refine (outer_foldl ?_ _ _).trans ?_; intro _ _)
    | rfl

@[simp] theorem outer_deliverWaiting (s : State) :
    (State.deliverWaiting s).outer = s.outer := by
  unfold State.deliverWaiting
  repeat' first
    | with_reducible rfl
    | split
    | simp
    | (with_reducible refine (outer_foldl ?_ _ _).trans ?_; intro _ _)
    | rfl

@[simp] theorem outer_receiptOutcome (s : State) (x : Sub) (ref : Ref) (waiter : Option (Fin 4)) (e : Ending) :
    (State.receiptOutcome s x ref waiter e).outer = s.outer := by
  unfold State.receiptOutcome
  repeat' first
    | with_reducible rfl
    | split
    | simp
    | (with_reducible refine (outer_foldl ?_ _ _).trans ?_; intro _ _)
    | rfl

@[simp] theorem outer_dropReceipts (s : State) (x : Sub) :
    (State.dropReceipts s x).outer = s.outer := by
  unfold State.dropReceipts
  repeat' first
    | with_reducible rfl
    | split
    | simp
    | (with_reducible refine (outer_foldl ?_ _ _).trans ?_; intro _ _)
    | rfl

/-! ### Voice -/

@[simp] theorem outer_upWrite (s : State) (k : Fin 4) (f : Frame) (o : UpOutcome) :
    (State.upWrite s k f o).outer = s.outer := by
  unfold State.upWrite
  repeat' first
    | with_reducible rfl
    | split
    | simp
    | (with_reducible refine (outer_foldl ?_ _ _).trans ?_; intro _ _)
    | rfl

@[simp] theorem outer_upFinal (s : State) (k : Fin 4) (f : Frame) (o : UpOutcome) :
    (State.upFinal s k f o).outer = s.outer := by
  unfold State.upFinal
  repeat' first
    | with_reducible rfl
    | split
    | simp
    | (with_reducible refine (outer_foldl ?_ _ _).trans ?_; intro _ _)
    | rfl

@[simp] theorem outer_downWrite (s : State) (k : Fin 4) (p : DownPending) :
    (State.downWrite s k p).outer = s.outer := by
  unfold State.downWrite
  repeat' first
    | with_reducible rfl
    | split
    | simp
    | (with_reducible refine (outer_foldl ?_ _ _).trans ?_; intro _ _)
    | rfl

@[simp] theorem outer_flush (s : State) (k : Fin 4) (p : DownPending → Bool) :
    (State.flush s k p).outer = s.outer := by
  unfold State.flush
  repeat' first
    | with_reducible rfl
    | split
    | simp
    | (with_reducible refine (outer_foldl ?_ _ _).trans ?_; intro _ _)
    | rfl

@[simp] theorem outer_downOutcome (s : State) (k : Fin 4) (f : Frame) (o : DownOutcome) (payload : List Byte) :
    (State.downOutcome s k f o payload).outer = s.outer := by
  unfold State.downOutcome
  repeat' first
    | with_reducible rfl
    | split
    | simp
    | (with_reducible refine (outer_foldl ?_ _ _).trans ?_; intro _ _)
    | rfl

@[simp] theorem outer_expectDown (s : State) (k : Fin 4) (c : Fin 3) (f : Frame) (o : Option DownOutcome) :
    (State.expectDown s k c f o).outer = s.outer := by
  unfold State.expectDown
  repeat' first
    | with_reducible rfl
    | split
    | simp
    | (with_reducible refine (outer_foldl ?_ _ _).trans ?_; intro _ _)
    | rfl

@[simp] theorem outer_takeRef (s : State) (x : Sub) :
    (State.takeRef s x).outer = s.outer := by
  unfold State.takeRef
  repeat' first
    | with_reducible rfl
    | split
    | simp
    | (with_reducible refine (outer_foldl ?_ _ _).trans ?_; intro _ _)
    | rfl

@[simp] theorem outer_setDecline (s : State) (x : Sub) (r : Option Ref) :
    (State.setDecline s x r).outer = s.outer := by
  unfold State.setDecline
  repeat' first
    | with_reducible rfl
    | split
    | simp
    | (with_reducible refine (outer_foldl ?_ _ _).trans ?_; intro _ _)
    | rfl

/-! ### Cells -/

@[simp] theorem outer_setRole (s : State) (x : Sub) (r : Fin 18) (role : CellRole) :
    (State.setRole s x r role).outer = s.outer := by
  unfold State.setRole
  repeat' first
    | with_reducible rfl
    | split
    | simp
    | (with_reducible refine (outer_foldl ?_ _ _).trans ?_; intro _ _)
    | rfl

@[simp] theorem outer_moveRole (s : State) (x : Sub) (old new : CellRole) :
    (State.moveRole s x old new).outer = s.outer := by
  unfold State.moveRole
  repeat' first
    | with_reducible rfl
    | split
    | simp
    | (with_reducible refine (outer_foldl ?_ _ _).trans ?_; intro _ _)
    | rfl

@[simp] theorem outer_dropServing (s : State) (x : Sub) :
    (State.dropServing s x).outer = s.outer := by
  unfold State.dropServing
  repeat' first
    | with_reducible rfl
    | split
    | simp
    | (with_reducible refine (outer_foldl ?_ _ _).trans ?_; intro _ _)
    | rfl

@[simp] theorem outer_dropTarget (s : State) (x : Sub) :
    (State.dropTarget s x).outer = s.outer := by
  unfold State.dropTarget
  repeat' first
    | with_reducible rfl
    | split
    | simp
    | (with_reducible refine (outer_foldl ?_ _ _).trans ?_; intro _ _)
    | rfl

@[simp] theorem outer_giveTarget (s : State) (x : Sub) (r : Fin 18) :
    (State.giveTarget s x r).outer = s.outer := by
  unfold State.giveTarget
  repeat' first
    | with_reducible rfl
    | split
    | simp
    | (with_reducible refine (outer_foldl ?_ _ _).trans ?_; intro _ _)
    | rfl

@[simp] theorem outer_zeroDwell (s : State) (x : Sub) :
    (State.zeroDwell s x).outer = s.outer := by
  unfold State.zeroDwell
  repeat' first
    | with_reducible rfl
    | split
    | simp
    | (with_reducible refine (outer_foldl ?_ _ _).trans ?_; intro _ _)
    | rfl

@[simp] theorem outer_barMark (s : State) (x : Sub) (k : Key) :
    (State.barMark s x k).outer = s.outer := by
  unfold State.barMark
  repeat' first
    | with_reducible rfl
    | split
    | simp
    | (with_reducible refine (outer_foldl ?_ _ _).trans ?_; intro _ _)
    | rfl

@[simp] theorem outer_quietMark (s : State) (x : Sub) (k : Key) (t : Nat) :
    (State.quietMark s x k t).outer = s.outer := by
  unfold State.quietMark
  repeat' first
    | with_reducible rfl
    | split
    | simp
    | (with_reducible refine (outer_foldl ?_ _ _).trans ?_; intro _ _)
    | rfl

@[simp] theorem outer_syncReject (s : State) (x : Sub) (k : Key) :
    (State.syncReject s x k).outer = s.outer := by
  unfold State.syncReject
  repeat' first
    | with_reducible rfl
    | split
    | simp
    | (with_reducible refine (outer_foldl ?_ _ _).trans ?_; intro _ _)
    | rfl

@[simp] theorem outer_sample (s : State) (x : Sub) (k : Key) (raw time : Nat) (served : Bool) :
    (State.sample s x k raw time served).outer = s.outer := by
  unfold State.sample
  repeat' first
    | with_reducible rfl
    | split
    | simp
    | (with_reducible refine (outer_foldl ?_ _ _).trans ?_; intro _ _)
    | rfl

@[simp] theorem outer_clearFailRun (s : State) (x : Sub) :
    (State.clearFailRun s x).outer = s.outer := by
  unfold State.clearFailRun
  repeat' first
    | with_reducible rfl
    | split
    | simp
    | (with_reducible refine (outer_foldl ?_ _ _).trans ?_; intro _ _)
    | rfl

@[simp] theorem outer_followMeasured (s : State) (x : Sub) (old new : Fin 18) :
    (State.followMeasured s x old new).outer = s.outer := by
  unfold State.followMeasured
  repeat' first
    | with_reducible rfl
    | split
    | simp
    | (with_reducible refine (outer_foldl ?_ _ _).trans ?_; intro _ _)
    | rfl

@[simp] theorem outer_follow (s : State) (x : Sub) (old new : Fin 18) :
    (State.follow s x old new).outer = s.outer := by
  unfold State.follow
  repeat' first
    | with_reducible rfl
    | split
    | simp
    | (with_reducible refine (outer_foldl ?_ _ _).trans ?_; intro _ _)
    | rfl

@[simp] theorem outer_takeGuest (s : State) (x : Sub) (g : Fin 18) (f : CellRec → CellRec) :
    (State.takeGuest s x g f).outer = s.outer := by
  unfold State.takeGuest
  repeat' first
    | with_reducible rfl
    | split
    | simp
    | (with_reducible refine (outer_foldl ?_ _ _).trans ?_; intro _ _)
    | rfl

@[simp] theorem outer_moveToGuest (s : State) (x : Sub) (r : Fin 18) :
    (State.moveToGuest s x r).outer = s.outer := by
  unfold State.moveToGuest
  repeat' first
    | with_reducible rfl
    | split
    | simp
    | (with_reducible refine (outer_foldl ?_ _ _).trans ?_; intro _ _)
    | rfl

@[simp] theorem outer_foldGuest (s : State) (x : Sub) (g : Fin 18) :
    (State.foldGuest s x g).outer = s.outer := by
  unfold State.foldGuest
  repeat' first
    | with_reducible rfl
    | split
    | simp
    | (with_reducible refine (outer_foldl ?_ _ _).trans ?_; intro _ _)
    | rfl

@[simp] theorem outer_targetRecord (s : State) (x : Sub) (k : Key) :
    (State.targetRecord s x k).outer = s.outer := by
  unfold State.targetRecord
  repeat' first
    | with_reducible rfl
    | split
    | simp
    | (with_reducible refine (outer_foldl ?_ _ _).trans ?_; intro _ _)
    | rfl

@[simp] theorem outer_completeProbe (s : State) (x : Sub) (r : Fin 18) (level : Option Nat) :
    (State.completeProbe s x r level).outer = s.outer := by
  unfold State.completeProbe
  repeat' first
    | with_reducible rfl
    | split
    | simp
    | (with_reducible refine (outer_foldl ?_ _ _).trans ?_; intro _ _)
    | rfl

@[simp] theorem outer_dropProbes (s : State) (x : Sub) :
    (State.dropProbes s x).outer = s.outer := by
  unfold State.dropProbes
  repeat' first
    | with_reducible rfl
    | split
    | simp
    | (with_reducible refine (outer_foldl ?_ _ _).trans ?_; intro _ _)
    | rfl

@[simp] theorem outer_takeUse (s : State) (x : Sub) (r : Fin 18) (h : CellSettings) :
    (State.takeUse s x r h).outer = s.outer := by
  unfold State.takeUse
  repeat' first
    | with_reducible rfl
    | split
    | simp
    | (with_reducible refine (outer_foldl ?_ _ _).trans ?_; intro _ _)
    | rfl

@[simp] theorem outer_takeStamps (s : State) (x : Sub) (r : Fin 18) (h : CellSettings) :
    (State.takeStamps s x r h).outer = s.outer := by
  unfold State.takeStamps
  repeat' first
    | with_reducible rfl
    | split
    | simp
    | (with_reducible refine (outer_foldl ?_ _ _).trans ?_; intro _ _)
    | rfl

@[simp] theorem outer_takeHostRecord (s : State) (x : Sub) (r : Fin 18) :
    (State.takeHostRecord s x r).outer = s.outer := by
  unfold State.takeHostRecord
  repeat' first
    | with_reducible rfl
    | split
    | simp
    | (with_reducible refine (outer_foldl ?_ _ _).trans ?_; intro _ _)
    | rfl

@[simp] theorem outer_takeTables (s : State) :
    (State.takeTables s).outer = s.outer := by
  unfold State.takeTables
  repeat' first
    | with_reducible rfl
    | split
    | simp
    | (with_reducible refine (outer_foldl ?_ _ _).trans ?_; intro _ _)
    | rfl

@[simp] theorem outer_initTable (s : State) (x : Sub) :
    (State.initTable s x).outer = s.outer := by
  unfold State.initTable
  repeat' first
    | with_reducible rfl
    | split
    | simp
    | (with_reducible refine (outer_foldl ?_ _ _).trans ?_; intro _ _)
    | rfl

@[simp] theorem outer_setPointer (s : State) (x : Sub) (r : Fin 18) :
    (State.setPointer s x r).outer = s.outer := by
  unfold State.setPointer
  repeat' first
    | with_reducible rfl
    | split
    | simp
    | (with_reducible refine (outer_foldl ?_ _ _).trans ?_; intro _ _)
    | rfl

/-! ### Deliver -/

@[simp] theorem outer_lendOutcome (s : State) (x : Sub) (e : Ending) :
    (State.lendOutcome s x e).outer = s.outer := by
  unfold State.lendOutcome
  repeat' first
    | with_reducible rfl
    | split
    | simp
    | (with_reducible refine (outer_foldl ?_ _ _).trans ?_; intro _ _)
    | rfl

@[simp] theorem outer_windowMissed (s : State) (x : Sub) :
    (State.windowMissed s x).outer = s.outer := by
  unfold State.windowMissed
  repeat' first
    | with_reducible rfl
    | split
    | simp
    | (with_reducible refine (outer_foldl ?_ _ _).trans ?_; intro _ _)
    | rfl

@[simp] theorem outer_pagingOutcome (s : State) (x : Sub) (e : Ending) :
    (State.pagingOutcome s x e).outer = s.outer := by
  unfold State.pagingOutcome
  repeat' first
    | with_reducible rfl
    | split
    | simp
    | (with_reducible refine (outer_foldl ?_ _ _).trans ?_; intro _ _)
    | rfl

@[simp] theorem outer_callOutcome (s : State) (k : Fin 4) (o : Occ) (e : Ending) :
    (State.callOutcome s k o e).outer = s.outer := by
  unfold State.callOutcome
  repeat' first
    | with_reducible rfl
    | split
    | simp
    | (with_reducible refine (outer_foldl ?_ _ _).trans ?_; intro _ _)
    | rfl

@[simp] theorem outer_deliverTo (s : State) (o : Occ) (e : Ending) (x : Sub) :
    (State.deliverTo s o e x).outer = s.outer := by
  unfold State.deliverTo
  repeat' first
    | with_reducible rfl
    | split
    | simp
    | (with_reducible refine (outer_foldl ?_ _ _).trans ?_; intro _ _)
    | rfl

@[simp] theorem outer_deliver (s : State) (o : Occ) (e : Ending) :
    (State.deliver s o e).outer = s.outer := by
  unfold State.deliver
  repeat' first
    | with_reducible rfl
    | split
    | simp
    | (with_reducible refine (outer_foldl ?_ _ _).trans ?_; intro _ _)
    | rfl

@[simp] theorem outer_deliverDenials (s : State) (l : List (Occ × Denial)) :
    (State.deliverDenials s l).outer = s.outer := by
  unfold State.deliverDenials
  repeat' first
    | with_reducible rfl
    | split
    | simp
    | (with_reducible refine (outer_foldl ?_ _ _).trans ?_; intro _ _)
    | rfl

@[simp] theorem outer_askDenied (s : State) (n : Occ) (r : Denial) :
    (State.askDenied s n r).outer = s.outer := by
  unfold State.askDenied
  repeat' first
    | with_reducible rfl
    | split
    | simp
    | (with_reducible refine (outer_foldl ?_ _ _).trans ?_; intro _ _)
    | rfl

@[simp] theorem outer_enter (s : State) (n : Occ) :
    (State.enter s n).1.outer = s.outer := by
  unfold State.enter
  repeat' first
    | with_reducible rfl
    | split
    | simp
    | (with_reducible refine (outer_foldl ?_ _ _).trans ?_; intro _ _)
    | rfl

@[simp] theorem outer_ask (s : State) (n : Occ) :
    (State.ask s n).1.outer = s.outer := by
  unfold State.ask
  repeat' first
    | with_reducible rfl
    | split
    | simp
    | (with_reducible refine (outer_foldl ?_ _ _).trans ?_; intro _ _)
    | rfl

@[simp] theorem outer_request (s : State) (n : Occ) :
    (State.request s n).outer = s.outer := by
  unfold State.request
  repeat' first
    | with_reducible rfl
    | split
    | simp
    | (with_reducible refine (outer_foldl ?_ _ _).trans ?_; intro _ _)
    | rfl

@[simp] theorem outer_revoke (s : State) (c : Fin 3) (alloc : Nat) :
    (State.revoke s c alloc).outer = s.outer := by
  unfold State.revoke
  repeat' first
    | with_reducible rfl
    | split
    | simp
    | (with_reducible refine (outer_foldl ?_ _ _).trans ?_; intro _ _)
    | rfl

@[simp] theorem outer_freeCtx (s : State) (c : Fin 3) :
    (State.freeCtx s c).outer = s.outer := by
  unfold State.freeCtx
  repeat' first
    | with_reducible rfl
    | split
    | simp
    | (with_reducible refine (outer_foldl ?_ _ _).trans ?_; intro _ _)
    | rfl

@[simp] theorem outer_withdrawSeek (s : State) (x : Sub) (c : Fin 3) :
    (State.withdrawSeek s x c).outer = s.outer := by
  unfold State.withdrawSeek
  repeat' first
    | with_reducible rfl
    | split
    | simp
    | (with_reducible refine (outer_foldl ?_ _ _).trans ?_; intro _ _)
    | rfl

@[simp] theorem outer_removeUser (s : State) (c : Fin 3) (r : Role) (x : Sub) :
    (State.removeUser s c r x).outer = s.outer := by
  unfold State.removeUser
  repeat' first
    | with_reducible rfl
    | split
    | simp
    | (with_reducible refine (outer_foldl ?_ _ _).trans ?_; intro _ _)
    | rfl

@[simp] theorem outer_cancelDeferred (s : State) (r : Role) (x : Sub) :
    (State.cancelDeferred s r x).outer = s.outer := by
  unfold State.cancelDeferred
  repeat' first
    | with_reducible rfl
    | split
    | simp
    | (with_reducible refine (outer_foldl ?_ _ _).trans ?_; intro _ _)
    | rfl

@[simp] theorem outer_removeRole (s : State) (r : Role) (x : Sub) :
    (State.removeRole s r x).outer = s.outer := by
  unfold State.removeRole
  repeat' first
    | with_reducible rfl
    | split
    | simp
    | (with_reducible refine (outer_foldl ?_ _ _).trans ?_; intro _ _)
    | rfl

@[simp] theorem outer_becomeServing (s : State) (c : Fin 3) (r : Role) (x : Sub) :
    (State.becomeServing s c r x).outer = s.outer := by
  unfold State.becomeServing
  repeat' first
    | with_reducible rfl
    | split
    | simp
    | (with_reducible refine (outer_foldl ?_ _ _).trans ?_; intro _ _)
    | rfl

@[simp] theorem outer_readmit (s : State) (n : Occ) :
    (State.readmit s n).outer = s.outer := by
  unfold State.readmit
  repeat' first
    | with_reducible rfl
    | split
    | simp
    | (with_reducible refine (outer_foldl ?_ _ _).trans ?_; intro _ _)
    | rfl

@[simp] theorem outer_reanchor (s : State) (c : Fin 3) (e : Int) :
    (State.reanchor s c e).outer = s.outer := by
  unfold State.reanchor
  repeat' first
    | with_reducible rfl
    | split
    | simp
    | (with_reducible refine (outer_foldl ?_ _ _).trans ?_; intro _ _)
    | rfl

@[simp] theorem outer_releaseOnSlot (s : State) (x : Sub) (k : Fin 4) :
    (State.releaseOnSlot s x k).outer = s.outer := by
  unfold State.releaseOnSlot
  repeat' first
    | with_reducible rfl
    | split
    | simp
    | (with_reducible refine (outer_foldl ?_ _ _).trans ?_; intro _ _)
    | rfl

@[simp] theorem outer_handSlots (s : State) (g : Staged) :
    (State.handSlots s g).outer = s.outer := by
  unfold State.handSlots
  repeat' first
    | with_reducible rfl
    | split
    | simp
    | (with_reducible refine (outer_foldl ?_ _ _).trans ?_; intro _ _)
    | rfl

@[simp] theorem outer_stage (s : State) (c : Fin 3) (g : Staged) :
    (State.stage s c g).outer = s.outer := by
  unfold State.stage
  repeat' first
    | with_reducible rfl
    | split
    | simp
    | (with_reducible refine (outer_foldl ?_ _ _).trans ?_; intro _ _)
    | rfl

@[simp] theorem outer_unstage (s : State) (k : Fin 4) :
    (State.unstage s k).outer = s.outer := by
  unfold State.unstage
  repeat' first
    | with_reducible rfl
    | split
    | simp
    | (with_reducible refine (outer_foldl ?_ _ _).trans ?_; intro _ _)
    | rfl

/-! ### Ranking -/

@[simp] theorem outer_addHistory (s : State) (x : Sub) (old new : BitVec 16) (k : ChangeKind) :
    (State.addHistory s x old new k).outer = s.outer := by
  unfold State.addHistory
  repeat' first
    | with_reducible rfl
    | split
    | simp
    | (with_reducible refine (outer_foldl ?_ _ _).trans ?_; intro _ _)
    | rfl

@[simp] theorem outer_dwellStep (s : State) (x : Sub) (e : Nat) (barredWindow : Bool) :
    (State.dwellStep s x e barredWindow).outer = s.outer := by
  unfold State.dwellStep
  repeat' first
    | with_reducible rfl
    | split
    | simp
    | (with_reducible refine (outer_foldl ?_ _ _).trans ?_; intro _ _)
    | rfl

@[simp] theorem outer_evaluate (s : State) (x : Sub) (barredWindow : Bool) :
    (State.evaluate s x barredWindow).1.outer = s.outer := by
  unfold State.evaluate
  repeat' first
    | with_reducible rfl
    | split
    | simp
    | (with_reducible refine (outer_foldl ?_ _ _).trans ?_; intro _ _)
    | rfl

/-! ### Service -/

theorem outer_tryJoin {s t : State} {r : Role} {x : Sub} {k : Key} (h : s.tryJoin r x k = some t) :
    t.outer = s.outer := by
  unfold State.tryJoin at h
  split at h
  · split at h
    · cases h; rfl
    · split at h
      · cases h; simp
      · cases h
  · split at h
    · cases h; simp
    · cases h

@[simp] theorem outer_defer (s : State) (r : Role) (x : Sub) (k : Key) :
    (State.defer s r x k).outer = s.outer := by
  unfold State.defer
  repeat' first
    | with_reducible rfl
    | split
    | simp
    | (with_reducible refine (outer_foldl ?_ _ _).trans ?_; intro _ _)
    | rfl

@[simp] theorem outer_attempt (s : State) (x : Sub) (r : Fin 18) (rest : List (Fin 18)) :
    (s.attempt x r rest).outer = s.outer := by
  unfold State.attempt
  dsimp only
  split
  · next h => exact (outer_tryJoin h).trans (by simp)
  · simp

theorem outer_tryRecords {s t : State} {x : Sub} {l : List (Fin 18)} (h : s.tryRecords x l = some t) :
    t.outer = s.outer := by
  induction l with
  | nil => cases h
  | cons r l ih =>
    unfold State.tryRecords at h
    split at h
    · cases h; simp
    · exact ih h

@[simp] theorem outer_enterLost (s : State) (x : Sub) (c : ServiceCause) : (s.enterLost x c).outer = s.outer := by
  simp [State.enterLost]


@[simp] theorem outer_beginPass (s : State) (x : Sub) : (s.beginPass x).outer = s.outer := by
  unfold State.beginPass
  dsimp only
  split
  · next h => exact (outer_tryRecords h).trans (by simp)
  · simp

@[simp] theorem outer_nextAttempt (s : State) (x : Sub) : (s.nextAttempt x).outer = s.outer := by
  unfold State.nextAttempt
  split
  · rfl
  · dsimp only
    split
    · next h => exact (outer_tryRecords h).trans (by simp)
    · split <;> simp

@[simp] theorem outer_searchPreempted (s : State) (x : Sub) :
    (State.searchPreempted s x).outer = s.outer := by
  unfold State.searchPreempted
  repeat' first
    | with_reducible rfl
    | split
    | simp
    | (with_reducible refine (outer_foldl ?_ _ _).trans ?_; intro _ _)
    | rfl

@[simp] theorem outer_tellPreempted (s : State) (u : User) (k : Key) :
    (State.tellPreempted s u k).outer = s.outer := by
  unfold State.tellPreempted
  repeat' first
    | with_reducible rfl
    | split
    | simp
    | (with_reducible refine (outer_foldl ?_ _ _).trans ?_; intro _ _)
    | rfl

@[simp] theorem outer_preempt (s : State) (c : Fin 3) (u : User) (r : Role) (x : Sub) (k : Key) :
    (State.preempt s c u r x k).outer = s.outer := by
  unfold State.preempt
  repeat' first
    | with_reducible rfl
    | split
    | simp
    | (with_reducible refine (outer_foldl ?_ _ _).trans ?_; intro _ _)
    | rfl

@[simp] theorem outer_allocate (s : State) (r : Role) (x : Sub) (k : Key) : (s.allocate r x k).outer = s.outer := by
  unfold State.allocate
  split
  · next h => exact outer_tryJoin h
  · split
    · simp
    · split <;> simp

@[simp] theorem outer_retry (s : State) (p : Deferred → Bool) :
    (State.retry s p).outer = s.outer := by
  unfold State.retry
  repeat' first
    | with_reducible rfl
    | split
    | simp
    | (with_reducible refine (outer_foldl ?_ _ _).trans ?_; intro _ _)
    | rfl

@[simp] theorem outer_nameWindow (s : State) (x : Sub) (f : Frame) :
    (State.nameWindow s x f).outer = s.outer := by
  unfold State.nameWindow
  repeat' first
    | with_reducible rfl
    | split
    | simp
    | (with_reducible refine (outer_foldl ?_ _ _).trans ?_; intro _ _)
    | rfl

@[simp] theorem outer_nameWindowIn (s : State) (x : Sub) (c : Fin 3) (f : Frame) :
    (State.nameWindowIn s x c f).outer = s.outer := by
  unfold State.nameWindowIn
  repeat' first
    | with_reducible rfl
    | split
    | simp
    | (with_reducible refine (outer_foldl ?_ _ _).trans ?_; intro _ _)
    | rfl

@[simp] theorem outer_noWindow (s : State) (x : Sub) :
    (State.noWindow s x).outer = s.outer := by
  unfold State.noWindow
  repeat' first
    | with_reducible rfl
    | split
    | simp
    | (with_reducible refine (outer_foldl ?_ _ _).trans ?_; intro _ _)
    | rfl

@[simp] theorem outer_listenFrom (s : State) (x : Sub) (f : Frame) :
    (State.listenFrom s x f).outer = s.outer := by
  unfold State.listenFrom
  repeat' first
    | with_reducible rfl
    | split
    | simp
    | (with_reducible refine (outer_foldl ?_ _ _).trans ?_; intro _ _)
    | rfl

@[simp] theorem outer_endListen (s : State) (x : Sub) :
    (State.endListen s x).outer = s.outer := by
  unfold State.endListen
  repeat' first
    | with_reducible rfl
    | split
    | simp
    | (with_reducible refine (outer_foldl ?_ _ _).trans ?_; intro _ _)
    | rfl

@[simp] theorem outer_areaTest (s : State) (x : Sub) (area : BitVec 12) :
    (State.areaTest s x area).outer = s.outer := by
  unfold State.areaTest
  repeat' first
    | with_reducible rfl
    | split
    | simp
    | (with_reducible refine (outer_foldl ?_ _ _).trans ?_; intro _ _)
    | rfl

@[simp] theorem outer_dropReselection (s : State) (x : Sub) :
    (State.dropReselection s x).outer = s.outer := by
  unfold State.dropReselection
  repeat' first
    | with_reducible rfl
    | split
    | simp
    | (with_reducible refine (outer_foldl ?_ _ _).trans ?_; intro _ _)
    | rfl

@[simp] theorem outer_discardRanking (s : State) (x : Sub) :
    (State.discardRanking s x).outer = s.outer := by
  unfold State.discardRanking
  repeat' first
    | with_reducible rfl
    | split
    | simp
    | (with_reducible refine (outer_foldl ?_ _ _).trans ?_; intro _ _)
    | rfl

@[simp] theorem outer_resetMachine (s : State) (x : Sub) (m : MachineState) :
    (State.resetMachine s x m).outer = s.outer := by
  unfold State.resetMachine
  repeat' first
    | with_reducible rfl
    | split
    | simp
    | (with_reducible refine (outer_foldl ?_ _ _).trans ?_; intro _ _)
    | rfl

@[simp] theorem outer_dropUplinks (s : State) (k : Fin 4) :
    (State.dropUplinks s k).outer = s.outer := by
  unfold State.dropUplinks
  repeat' first
    | with_reducible rfl
    | split
    | simp
    | (with_reducible refine (outer_foldl ?_ _ _).trans ?_; intro _ _)
    | rfl

@[simp] theorem outer_closeCall (s : State) (k : Fin 4) (cause : CallCause) (byte : BitVec 8) :
    (State.closeCall s k cause byte).outer = s.outer := by
  unfold State.closeCall
  repeat' first
    | with_reducible rfl
    | split
    | simp
    | (with_reducible refine (outer_foldl ?_ _ _).trans ?_; intro _ _)
    | rfl

@[simp] theorem outer_disableRinging (s : State) (x : Sub) :
    (State.disableRinging s x).outer = s.outer := by
  unfold State.disableRinging
  repeat' first
    | with_reducible rfl
    | split
    | simp
    | (with_reducible refine (outer_foldl ?_ _ _).trans ?_; intro _ _)
    | rfl

@[simp] theorem outer_leaveCell (s : State) (x : Sub) :
    (State.leaveCell s x).outer = s.outer := by
  unfold State.leaveCell
  repeat' first
    | with_reducible rfl
    | split
    | simp
    | (with_reducible refine (outer_foldl ?_ _ _).trans ?_; intro _ _)
    | rfl

@[simp] theorem outer_goOff (s : State) (x : Sub) :
    (State.goOff s x).outer = s.outer := by
  unfold State.goOff
  repeat' first
    | with_reducible rfl
    | split
    | simp
    | (with_reducible refine (outer_foldl ?_ _ _).trans ?_; intro _ _)
    | rfl

@[simp] theorem outer_enterSearching (s : State) (x : Sub) (c : ServiceCause) :
    (State.enterSearching s x c).outer = s.outer := by
  unfold State.enterSearching
  repeat' first
    | with_reducible rfl
    | split
    | simp
    | (with_reducible refine (outer_foldl ?_ _ _).trans ?_; intro _ _)
    | rfl

@[simp] theorem outer_searchOrOff (s : State) (x : Sub) (c : ServiceCause) :
    (State.searchOrOff s x c).outer = s.outer := by
  unfold State.searchOrOff
  repeat' first
    | with_reducible rfl
    | split
    | simp
    | (with_reducible refine (outer_foldl ?_ _ _).trans ?_; intro _ _)
    | rfl

@[simp] theorem outer_camp (s : State) (x : Sub) (r : Fin 18) (c : Fin 3) (f : Frame) (area : BitVec 12) :
    (State.camp s x r c f area).outer = s.outer := by
  unfold State.camp
  repeat' first
    | with_reducible rfl
    | split
    | simp
    | (with_reducible refine (outer_foldl ?_ _ _).trans ?_; intro _ _)
    | rfl

@[simp] theorem outer_connect (s : State) (x : Sub) :
    (State.connect s x).outer = s.outer := by
  unfold State.connect
  repeat' first
    | with_reducible rfl
    | split
    | simp
    | (with_reducible refine (outer_foldl ?_ _ _).trans ?_; intro _ _)
    | rfl

@[simp] theorem outer_backToCamped (s : State) (x : Sub) :
    (State.backToCamped s x).outer = s.outer := by
  unfold State.backToCamped
  repeat' first
    | with_reducible rfl
    | split
    | simp
    | (with_reducible refine (outer_foldl ?_ _ _).trans ?_; intro _ _)
    | rfl

@[simp] theorem outer_endCall (s : State) (k : Fin 4) (cause : CallCause) (byte : BitVec 8) :
    (State.endCall s k cause byte).outer = s.outer := by
  unfold State.endCall
  repeat' first
    | with_reducible rfl
    | split
    | simp
    | (with_reducible refine (outer_foldl ?_ _ _).trans ?_; intro _ _)
    | rfl

@[simp] theorem outer_dropCall (s : State) (x : Sub) (cause : CallCause) (service : ServiceCause) :
    (State.dropCall s x cause service).outer = s.outer := by
  unfold State.dropCall
  repeat' first
    | with_reducible rfl
    | split
    | simp
    | (with_reducible refine (outer_foldl ?_ _ _).trans ?_; intro _ _)
    | rfl

@[simp] theorem outer_reselect (s : State) (x : Sub) (c : Fin 3) (k : Key) (f : Frame) (area : BitVec 12) :
    (State.reselect s x c k f area).outer = s.outer := by
  unfold State.reselect
  repeat' first
    | with_reducible rfl
    | split
    | simp
    | (with_reducible refine (outer_foldl ?_ _ _).trans ?_; intro _ _)
    | rfl

/-! ### Handover -/

@[simp] theorem outer_startReport (s : State) (x : Sub) (t : Trigger) :
    (State.startReport s x t).outer = s.outer := by
  unfold State.startReport
  repeat' first
    | with_reducible rfl
    | split
    | simp
    | (with_reducible refine (outer_foldl ?_ _ _).trans ?_; intro _ _)
    | rfl

@[simp] theorem outer_takeEvaluation (s : State) (x : Sub) (t : Option Trigger) :
    (State.takeEvaluation s x t).outer = s.outer := by
  unfold State.takeEvaluation
  repeat' first
    | with_reducible rfl
    | split
    | simp
    | (with_reducible refine (outer_foldl ?_ _ _).trans ?_; intro _ _)
    | rfl

@[simp] theorem outer_reportHeard (s : State) (x : Sub) (g : Frame) :
    (State.reportHeard s x g).outer = s.outer := by
  unfold State.reportHeard
  repeat' first
    | with_reducible rfl
    | split
    | simp
    | (with_reducible refine (outer_foldl ?_ _ _).trans ?_; intro _ _)
    | rfl

@[simp] theorem outer_giveUp (s : State) (x : Sub) :
    (State.giveUp s x).outer = s.outer := by
  unfold State.giveUp
  repeat' first
    | with_reducible rfl
    | split
    | simp
    | (with_reducible refine (outer_foldl ?_ _ _).trans ?_; intro _ _)
    | rfl

@[simp] theorem outer_reportTimer (s : State) (x : Sub) (f : Frame) :
    (State.reportTimer s x f).outer = s.outer := by
  unfold State.reportTimer
  repeat' first
    | with_reducible rfl
    | split
    | simp
    | (with_reducible refine (outer_foldl ?_ _ _).trans ?_; intro _ _)
    | rfl

@[simp] theorem outer_offerReportTimer (s : State) (x : Sub) (f : Frame) :
    (State.offerReportTimer s x f).outer = s.outer := by
  unfold State.offerReportTimer
  repeat' first
    | with_reducible rfl
    | split
    | simp
    | (with_reducible refine (outer_foldl ?_ _ _).trans ?_; intro _ _)
    | rfl

@[simp] theorem outer_takeOrder (s : State) (x : Sub) (c : Fin 3) (f : Frame) (o : Order) :
    (State.takeOrder s x c f o).outer = s.outer := by
  unfold State.takeOrder
  repeat' first
    | with_reducible rfl
    | split
    | simp
    | (with_reducible refine (outer_foldl ?_ _ _).trans ?_; intro _ _)
    | rfl

@[simp] theorem outer_upSuspend (s : State) (k : Fin 4) (f : Frame) :
    (State.upSuspend s k f).outer = s.outer := by
  unfold State.upSuspend
  repeat' first
    | with_reducible rfl
    | split
    | simp
    | (with_reducible refine (outer_foldl ?_ _ _).trans ?_; intro _ _)
    | rfl

@[simp] theorem outer_suspendVoice (s : State) (k : Fin 4) (f : Frame) :
    (State.suspendVoice s k f).outer = s.outer := by
  unfold State.suspendVoice
  repeat' first
    | with_reducible rfl
    | split
    | simp
    | (with_reducible refine (outer_foldl ?_ _ _).trans ?_; intro _ _)
    | rfl

@[simp] theorem outer_secondFailure (s : State) (x : Sub) :
    (State.secondFailure s x).outer = s.outer := by
  unfold State.secondFailure
  repeat' first
    | with_reducible rfl
    | split
    | simp
    | (with_reducible refine (outer_foldl ?_ _ _).trans ?_; intro _ _)
    | rfl

@[simp] theorem outer_linkFailure (s : State) (x : Sub) :
    (State.linkFailure s x).outer = s.outer := by
  unfold State.linkFailure
  repeat' first
    | with_reducible rfl
    | split
    | simp
    | (with_reducible refine (outer_foldl ?_ _ _).trans ?_; intro _ _)
    | rfl

@[simp] theorem outer_reversionListen (s : State) (x : Sub) (c : Fin 3) (f : Frame) :
    (State.reversionListen s x c f).outer = s.outer := by
  unfold State.reversionListen
  repeat' first
    | with_reducible rfl
    | split
    | simp
    | (with_reducible refine (outer_foldl ?_ _ _).trans ?_; intro _ _)
    | rfl

@[simp] theorem outer_failHandover (s : State) (x : Sub) :
    (State.failHandover s x).outer = s.outer := by
  unfold State.failHandover
  repeat' first
    | with_reducible rfl
    | split
    | simp
    | (with_reducible refine (outer_foldl ?_ _ _).trans ?_; intro _ _)
    | rfl

@[simp] theorem outer_leaveOld (s : State) (x : Sub) (k : Fin 4) (c : Fin 3) (f : Frame) (o : Order) :
    (State.leaveOld s x k c f o).outer = s.outer := by
  unfold State.leaveOld
  repeat' first
    | with_reducible rfl
    | split
    | simp
    | (with_reducible refine (outer_foldl ?_ _ _).trans ?_; intro _ _)
    | rfl

@[simp] theorem outer_revertHandover (s : State) (x : Sub) :
    (State.revertHandover s x).outer = s.outer := by
  unfold State.revertHandover
  repeat' first
    | with_reducible rfl
    | split
    | simp
    | (with_reducible refine (outer_foldl ?_ _ _).trans ?_; intro _ _)
    | rfl

@[simp] theorem outer_serveKey (s : State) (x : Sub) (k : Key) :
    (State.serveKey s x k).outer = s.outer := by
  unfold State.serveKey
  repeat' first
    | with_reducible rfl
    | split
    | simp
    | (with_reducible refine (outer_foldl ?_ _ _).trans ?_; intro _ _)
    | rfl

@[simp] theorem outer_commitHandover (s : State) (x : Sub) (c : Fin 3) (k : Fin 4) (o : Order) :
    (State.commitHandover s x c k o).outer = s.outer := by
  unfold State.commitHandover
  repeat' first
    | with_reducible rfl
    | split
    | simp
    | (with_reducible refine (outer_foldl ?_ _ _).trans ?_; intro _ _)
    | rfl

@[simp] theorem outer_settleCamped (s : State) (x : Sub) (changed : Bool) :
    (State.settleCamped s x changed).outer = s.outer := by
  unfold State.settleCamped
  repeat' first
    | with_reducible rfl
    | split
    | simp
    | (with_reducible refine (outer_foldl ?_ _ _).trans ?_; intro _ _)
    | rfl

@[simp] theorem outer_stopHandover (s : State) (x : Sub) (k : Fin 4) (cause : CallCause) (byte : BitVec 8) :
    (State.stopHandover s x k cause byte).outer = s.outer := by
  unfold State.stopHandover
  repeat' first
    | with_reducible rfl
    | split
    | simp
    | (with_reducible refine (outer_foldl ?_ _ _).trans ?_; intro _ _)
    | rfl

@[simp] theorem outer_targetFound (s : State) (x : Sub) (k : Key) (f : Frame) (barred : Bool) (area : BitVec 12) :
    (State.targetFound s x k f barred area).outer = s.outer := by
  unfold State.targetFound
  repeat' first
    | with_reducible rfl
    | split
    | simp
    | (with_reducible refine (outer_foldl ?_ _ _).trans ?_; intro _ _)
    | rfl

/-! ### Offers -/

@[simp] theorem outer_offerWindow (s : State) (x : Sub) (c : Fin 3) (f : Frame) :
    (State.offerWindow s x c f).outer = s.outer := by
  unfold State.offerWindow
  repeat' first
    | with_reducible rfl
    | split
    | simp
    | (with_reducible refine (outer_foldl ?_ _ _).trans ?_; intro _ _)
    | rfl

@[simp] theorem outer_offerBeacon (s : State) (x : Sub) (c : Fin 3) (f : Frame) :
    (State.offerBeacon s x c f).outer = s.outer := by
  unfold State.offerBeacon
  repeat' first
    | with_reducible rfl
    | split
    | simp
    | (with_reducible refine (outer_foldl ?_ _ _).trans ?_; intro _ _)
    | rfl

@[simp] theorem outer_offerSuspended (s : State) (x : Sub) (c : Fin 3) (f : Frame) :
    (State.offerSuspended s x c f).outer = s.outer := by
  unfold State.offerSuspended
  repeat' first
    | with_reducible rfl
    | split
    | simp
    | (with_reducible refine (outer_foldl ?_ _ _).trans ?_; intro _ _)
    | rfl

theorem outer_of_ask {s t : State} {n : Occ} {a : Answer} (h : s.ask n = (t, a)) : t.outer = s.outer := by
  have e := outer_ask s n
  rw [h] at e
  exact e

@[simp] theorem outer_offerDown (s : State) (x : Sub) (c : Fin 3) (f : Frame) (k : Fin 4) :
    (s.offerDown x c f k).outer = s.outer := by
  unfold State.offerDown
  dsimp only
  split <;> next h => simpa using outer_of_ask h

@[simp] theorem outer_askUp (s : State) (x : Sub) (c : Fin 3) (f : Frame) (k : Fin 4) (kind : Kind) (b : Uplink) :
    (s.askUp x c f k kind b).outer = s.outer := by
  unfold State.askUp
  dsimp only
  split <;> next h => simpa using outer_of_ask h

@[simp] theorem outer_offerUp (s : State) (x : Sub) (c : Fin 3) (f : Frame) (k : Fin 4) :
    (State.offerUp s x c f k).outer = s.outer := by
  unfold State.offerUp
  repeat' first
    | with_reducible rfl
    | split
    | simp
    | (with_reducible refine (outer_foldl ?_ _ _).trans ?_; intro _ _)
    | rfl

@[simp] theorem outer_offerCallSlot (s : State) (x : Sub) (c : Fin 3) (f : Frame) (i : Nat) :
    (State.offerCallSlot s x c f i).outer = s.outer := by
  unfold State.offerCallSlot
  repeat' first
    | with_reducible rfl
    | split
    | simp
    | (with_reducible refine (outer_foldl ?_ _ _).trans ?_; intro _ _)
    | rfl

@[simp] theorem outer_offerListen (s : State) (x : Sub) (c : Fin 3) (f : Frame) (i : Nat) :
    (State.offerListen s x c f i).outer = s.outer := by
  unfold State.offerListen
  repeat' first
    | with_reducible rfl
    | split
    | simp
    | (with_reducible refine (outer_foldl ?_ _ _).trans ?_; intro _ _)
    | rfl

@[simp] theorem outer_noteMeasure (s : State) (x : Sub) (c : Fin 3) (f : Frame) (r : Fin 18) :
    (State.noteMeasure s x c f r).outer = s.outer := by
  unfold State.noteMeasure
  repeat' first
    | with_reducible rfl
    | split
    | simp
    | (with_reducible refine (outer_foldl ?_ _ _).trans ?_; intro _ _)
    | rfl

@[simp] theorem outer_measureSlot (s : State) (x : Sub) (c : Fin 3) (f : Frame) (i : Nat) (first : Bool)
    (granted : List (Fin 18)) : (s.measureSlot x c f i first granted).1.outer = s.outer := by
  unfold State.measureSlot
  split
  · split
    · next h => simpa using outer_of_ask h
    · next h => exact outer_of_ask h
  · split
    · rfl
    · split
      · next h => simpa using outer_of_ask h
      · next h => exact outer_of_ask h

@[simp] theorem outer_batch (s : State) (x : Sub) (c : Fin 3) (f : Frame) : (s.batch x c f).outer = s.outer := by
  unfold State.batch
  dsimp only
  refine (outer_foldl_pair ?_ _ _).trans (by simp)
  intro p j
  simp

@[simp] theorem outer_offerTarget (s : State) (x : Sub) (c : Fin 3) (f : Frame) :
    (State.offerTarget s x c f).outer = s.outer := by
  unfold State.offerTarget
  repeat' first
    | with_reducible rfl
    | split
    | simp
    | (with_reducible refine (outer_foldl ?_ _ _).trans ?_; intro _ _)
    | rfl

@[simp] theorem outer_offerCallOpen (s : State) (x : Sub) (c : Fin 3) (f : Frame) :
    (State.offerCallOpen s x c f).outer = s.outer := by
  unfold State.offerCallOpen
  repeat' first
    | with_reducible rfl
    | split
    | simp
    | (with_reducible refine (outer_foldl ?_ _ _).trans ?_; intro _ _)
    | rfl

@[simp] theorem outer_offerDecline (s : State) (x : Sub) (c : Fin 3) (f : Frame) :
    (State.offerDecline s x c f).outer = s.outer := by
  unfold State.offerDecline
  repeat' first
    | with_reducible rfl
    | split
    | simp
    | (with_reducible refine (outer_foldl ?_ _ _).trans ?_; intro _ _)
    | rfl

@[simp] theorem outer_offerReceipts (s : State) (x : Sub) (c : Fin 3) (f : Frame) :
    (State.offerReceipts s x c f).outer = s.outer := by
  unfold State.offerReceipts
  repeat' first
    | with_reducible rfl
    | split
    | simp
    | (with_reducible refine (outer_foldl ?_ _ _).trans ?_; intro _ _)
    | rfl

@[simp] theorem outer_offerSegment (s : State) (x : Sub) (c : Fin 3) (f : Frame) :
    (s.offerSegment x c f).outer = s.outer := by
  unfold State.offerSegment
  split
  · rfl
  · split
    · dsimp only
      split <;> next h => simpa using outer_of_ask h
    · rfl

@[simp] theorem outer_offerAckWindow (s : State) (x : Sub) (f : Frame) :
    (State.offerAckWindow s x f).outer = s.outer := by
  unfold State.offerAckWindow
  repeat' first
    | with_reducible rfl
    | split
    | simp
    | (with_reducible refine (outer_foldl ?_ _ _).trans ?_; intro _ _)
    | rfl

@[simp] theorem outer_offerServing (s : State) (x : Sub) (c : Fin 3) (f : Frame) :
    (s.offerServing x c f).outer = s.outer := by
  unfold State.offerServing
  dsimp only
  split
  · simp
  · simp only [outer_offerSegment, outer_offerReceipts, outer_offerDecline, outer_offerCallOpen]
    refine (outer_foldl_pair ?_ _ _).trans (by simp)
    intro p i
    repeat' split
    all_goals simp

@[simp] theorem outer_offerSub (s : State) (x : Sub) (c : Fin 3) (f : Frame) :
    (State.offerSub s x c f).outer = s.outer := by
  unfold State.offerSub
  repeat' first
    | with_reducible rfl
    | split
    | simp
    | (with_reducible refine (outer_foldl ?_ _ _).trans ?_; intro _ _)
    | rfl

@[simp] theorem outer_requestSeek (s : State) (o : Occ) (use : Use) (us : List User) :
    (State.requestSeek s o use us).outer = s.outer := by
  unfold State.requestSeek
  repeat' first
    | with_reducible rfl
    | split
    | simp
    | (with_reducible refine (outer_foldl ?_ _ _).trans ?_; intro _ _)
    | rfl

@[simp] theorem outer_offerSeek (s : State) (c : Fin 3) (f : Frame) :
    (State.offerSeek s c f).outer = s.outer := by
  unfold State.offerSeek
  repeat' first
    | with_reducible rfl
    | split
    | simp
    | (with_reducible refine (outer_foldl ?_ _ _).trans ?_; intro _ _)
    | rfl

@[simp] theorem outer_handStaged (s : State) (c : Fin 3) (f : Frame) :
    (State.handStaged s c f).outer = s.outer := by
  unfold State.handStaged
  repeat' first
    | with_reducible rfl
    | split
    | simp
    | (with_reducible refine (outer_foldl ?_ _ _).trans ?_; intro _ _)
    | rfl

@[simp] theorem outer_retryAt (s : State) (c : Fin 3) :
    (State.retryAt s c).outer = s.outer := by
  unfold State.retryAt
  repeat' first
    | with_reducible rfl
    | split
    | simp
    | (with_reducible refine (outer_foldl ?_ _ _).trans ?_; intro _ _)
    | rfl

@[simp] theorem outer_offer (s : State) (c : Fin 3) (f : Frame) :
    (State.offer s c f).outer = s.outer := by
  unfold State.offer
  repeat' first
    | with_reducible rfl
    | split
    | simp
    | (with_reducible refine (outer_foldl ?_ _ _).trans ?_; intro _ _)
    | rfl

@[simp] theorem outer_seekEvent (s : State) (c : Fin 3) :
    (State.seekEvent s c).outer = s.outer := by
  unfold State.seekEvent
  repeat' first
    | with_reducible rfl
    | split
    | simp
    | (with_reducible refine (outer_foldl ?_ _ _).trans ?_; intro _ _)
    | rfl

/-! ### Reports -/

@[simp] theorem outer_conclude (s : State) (h : Handle) (e : Ending) :
    (State.conclude s h e).outer = s.outer := by
  unfold State.conclude
  repeat' first
    | with_reducible rfl
    | split
    | simp
    | (with_reducible refine (outer_foldl ?_ _ _).trans ?_; intro _ _)
    | rfl

@[simp] theorem outer_missBeacon (s : State) (o : Occ) :
    (State.missBeacon s o).outer = s.outer := by
  unfold State.missBeacon
  repeat' first
    | with_reducible rfl
    | split
    | simp
    | (with_reducible refine (outer_foldl ?_ _ _).trans ?_; intro _ _)
    | rfl

@[simp] theorem outer_missWindows (s : State) (o : Occ) :
    (State.missWindows s o).outer = s.outer := by
  unfold State.missWindows
  repeat' first
    | with_reducible rfl
    | split
    | simp
    | (with_reducible refine (outer_foldl ?_ _ _).trans ?_; intro _ _)
    | rfl

@[simp] theorem outer_incomingCall (s : State) (x : Sub) (capture : Nat) :
    (State.incomingCall s x capture).outer = s.outer := by
  unfold State.incomingCall
  repeat' first
    | with_reducible rfl
    | split
    | simp
    | (with_reducible refine (outer_foldl ?_ _ _).trans ?_; intro _ _)
    | rfl

@[simp] theorem outer_extendListen (s : State) (x : Sub) (f : Frame) :
    (State.extendListen s x f).outer = s.outer := by
  unfold State.extendListen
  repeat' first
    | with_reducible rfl
    | split
    | simp
    | (with_reducible refine (outer_foldl ?_ _ _).trans ?_; intro _ _)
    | rfl

@[simp] theorem outer_textPaging (s : State) (x : Sub) (f : Frame) :
    (State.textPaging s x f).outer = s.outer := by
  unfold State.textPaging
  repeat' first
    | with_reducible rfl
    | split
    | simp
    | (with_reducible refine (outer_foldl ?_ _ _).trans ?_; intro _ _)
    | rfl

@[simp] theorem outer_takePaging (s : State) (x : Sub) (b : Beacon) (r : PagingReason) :
    (State.takePaging s x b r).outer = s.outer := by
  unfold State.takePaging
  repeat' first
    | with_reducible rfl
    | split
    | simp
    | (with_reducible refine (outer_foldl ?_ _ _).trans ?_; intro _ _)
    | rfl

@[simp] theorem outer_takePagings (s : State) (x : Sub) (b : Beacon) :
    (State.takePagings s x b).outer = s.outer := by
  unfold State.takePagings
  repeat' first
    | with_reducible rfl
    | split
    | simp
    | (with_reducible refine (outer_foldl ?_ _ _).trans ?_; intro _ _)
    | rfl

@[simp] theorem outer_takeAcks (s : State) (x : Sub) (b : Beacon) :
    (State.takeAcks s x b).outer = s.outer := by
  unfold State.takeAcks
  repeat' first
    | with_reducible rfl
    | split
    | simp
    | (with_reducible refine (outer_foldl ?_ _ _).trans ?_; intro _ _)
    | rfl

@[simp] theorem outer_startReselection (s : State) (x : Sub) (t : Trigger) :
    (State.startReselection s x t).outer = s.outer := by
  unfold State.startReselection
  repeat' first
    | with_reducible rfl
    | split
    | simp
    | (with_reducible refine (outer_foldl ?_ _ _).trans ?_; intro _ _)
    | rfl

@[simp] theorem outer_newWake (s : State) (x : Sub) :
    (State.newWake s x).outer = s.outer := by
  unfold State.newWake
  repeat' first
    | with_reducible rfl
    | split
    | simp
    | (with_reducible refine (outer_foldl ?_ _ _).trans ?_; intro _ _)
    | rfl

theorem outer_of_evaluate {s t : State} {x : Sub} {b : Bool} {r : Option Trigger} (h : s.evaluate x b = (t, r)) :
    t.outer = s.outer := by
  have e := outer_evaluate s x b
  rw [h] at e
  exact e

@[simp] theorem outer_rankWindow (s : State) (x : Sub) (barred : Bool) : (s.rankWindow x barred).outer = s.outer := by
  unfold State.rankWindow
  dsimp only
  split
  · split <;> next h => simpa using outer_of_evaluate h
  · simp

@[simp] theorem outer_mobilityBeacon (s : State) (o : Occ) (x : Sub) (b : Beacon) :
    (State.mobilityBeacon s o x b).outer = s.outer := by
  unfold State.mobilityBeacon
  repeat' first
    | with_reducible rfl
    | split
    | simp
    | (with_reducible refine (outer_foldl ?_ _ _).trans ?_; intro _ _)
    | rfl

@[simp] theorem outer_serveBeacon (s : State) (o : Occ) (b : Beacon) (x : Sub) :
    (State.serveBeacon s o b x).outer = s.outer := by
  unfold State.serveBeacon
  repeat' first
    | with_reducible rfl
    | split
    | simp
    | (with_reducible refine (outer_foldl ?_ _ _).trans ?_; intro _ _)
    | rfl

@[simp] theorem outer_searchFound (s : State) (x : Sub) (c : Fin 3) (k : Key) (b : Beacon) :
    (State.searchFound s x c k b).outer = s.outer := by
  unfold State.searchFound
  repeat' first
    | with_reducible rfl
    | split
    | simp
    | (with_reducible refine (outer_foldl ?_ _ _).trans ?_; intro _ _)
    | rfl

@[simp] theorem outer_verifyFound (s : State) (x : Sub) (c : Fin 3) (k : Key) (b : Beacon) :
    (State.verifyFound s x c k b).outer = s.outer := by
  unfold State.verifyFound
  repeat' first
    | with_reducible rfl
    | split
    | simp
    | (with_reducible refine (outer_foldl ?_ _ _).trans ?_; intro _ _)
    | rfl

@[simp] theorem outer_tellFound (s : State) (c : Fin 3) (k : Key) (b : Beacon) (u : User) :
    (State.tellFound s c k b u).outer = s.outer := by
  unfold State.tellFound
  repeat' first
    | with_reducible rfl
    | split
    | simp
    | (with_reducible refine (outer_foldl ?_ _ _).trans ?_; intro _ _)
    | rfl

@[simp] theorem outer_endSeeks (s : State) (c : Fin 3) :
    (State.endSeeks s c).outer = s.outer := by
  unfold State.endSeeks
  repeat' first
    | with_reducible rfl
    | split
    | simp
    | (with_reducible refine (outer_foldl ?_ _ _).trans ?_; intro _ _)
    | rfl

@[simp] theorem outer_rejectBeacon (s : State) (o : Occ) :
    (State.rejectBeacon s o).outer = s.outer := by
  unfold State.rejectBeacon
  repeat' first
    | with_reducible rfl
    | split
    | simp
    | (with_reducible refine (outer_foldl ?_ _ _).trans ?_; intro _ _)
    | rfl

@[simp] theorem outer_driftSample (s : State) (e : Int) : (s.driftSample e).outer = s.outer := by
  unfold State.driftSample
  dsimp only
  split
  · rfl
  · split
    · simp [State.powerUpd, State.outer]
    · simp [State.powerUpd, State.outer]

@[simp] theorem outer_wakeSample (s : State) (c : Ctx) (e : Int) : (s.wakeSample c e).outer = s.outer := by
  unfold State.wakeSample
  split <;> simp

@[simp] theorem outer_sampleBeacon (s : State) (o : Occ) (b : Beacon) (k : Key) (found : List User) :
    (State.sampleBeacon s o b k found).outer = s.outer := by
  unfold State.sampleBeacon
  repeat' first
    | with_reducible rfl
    | split
    | simp
    | (with_reducible refine (outer_foldl ?_ _ _).trans ?_; intro _ _)
    | rfl

@[simp] theorem outer_handContents (s : State) (o : Occ) (b : Beacon) (k : Key) (found : List User) :
    (State.handContents s o b k found).outer = s.outer := by
  unfold State.handContents
  repeat' first
    | with_reducible rfl
    | split
    | simp
    | (with_reducible refine (outer_foldl ?_ _ _).trans ?_; intro _ _)
    | rfl

@[simp] theorem outer_foundBeacon (s : State) (o : Occ) (b : Beacon) :
    (State.foundBeacon s o b).outer = s.outer := by
  unfold State.foundBeacon
  repeat' first
    | with_reducible rfl
    | split
    | simp
    | (with_reducible refine (outer_foldl ?_ _ _).trans ?_; intro _ _)
    | rfl

@[simp] theorem outer_trackBeacon (s : State) (o : Occ) (b : Beacon) :
    (State.trackBeacon s o b).outer = s.outer := by
  unfold State.trackBeacon
  repeat' first
    | with_reducible rfl
    | split
    | simp
    | (with_reducible refine (outer_foldl ?_ _ _).trans ?_; intro _ _)
    | rfl

@[simp] theorem outer_routeBeacon (s : State) (o : Occ) (b : Beacon) :
    (State.routeBeacon s o b).outer = s.outer := by
  unfold State.routeBeacon
  repeat' first
    | with_reducible rfl
    | split
    | simp
    | (with_reducible refine (outer_foldl ?_ _ _).trans ?_; intro _ _)
    | rfl

@[simp] theorem outer_takeAssign (s : State) (x : Sub) (c : Fin 3) (k : Fin 4) (down up : Nat) (f : Frame) (t : Nat) :
    (State.takeAssign s x c k down up f t).outer = s.outer := by
  unfold State.takeAssign
  repeat' first
    | with_reducible rfl
    | split
    | simp
    | (with_reducible refine (outer_foldl ?_ _ _).trans ?_; intro _ _)
    | rfl

@[simp] theorem outer_writeStolen (s : State) (k : Fin 4) (c : Fin 3) (f : Frame) :
    (State.writeStolen s k c f).outer = s.outer := by
  unfold State.writeStolen
  repeat' first
    | with_reducible rfl
    | split
    | simp
    | (with_reducible refine (outer_foldl ?_ _ _).trans ?_; intro _ _)
    | rfl

@[simp] theorem outer_endByBlock (s : State) (x : Sub) (c : Fin 3) (f : Frame) (k : Fin 4) (cause : CallCause) (byte : BitVec 8) :
    (State.endByBlock s x c f k cause byte).outer = s.outer := by
  unfold State.endByBlock
  repeat' first
    | with_reducible rfl
    | split
    | simp
    | (with_reducible refine (outer_foldl ?_ _ _).trans ?_; intro _ _)
    | rfl

@[simp] theorem outer_takeReject (s : State) (x : Sub) (c : Fin 3) (f : Frame) (k : Fin 4) (byte : BitVec 8) :
    (State.takeReject s x c f k byte).outer = s.outer := by
  unfold State.takeReject
  repeat' first
    | with_reducible rfl
    | split
    | simp
    | (with_reducible refine (outer_foldl ?_ _ _).trans ?_; intro _ _)
    | rfl

@[simp] theorem outer_takeRelease (s : State) (x : Sub) (c : Fin 3) (f : Frame) (k : Fin 4) (byte : BitVec 8) :
    (State.takeRelease s x c f k byte).outer = s.outer := by
  unfold State.takeRelease
  repeat' first
    | with_reducible rfl
    | split
    | simp
    | (with_reducible refine (outer_foldl ?_ _ _).trans ?_; intro _ _)
    | rfl

@[simp] theorem outer_sendReceipt (s : State) (x : Sub) (c : Fin 3) (g : Frame) (ref : Ref) (i : Fin 8) (w : Option (Fin 4)) :
    (State.sendReceipt s x c g ref i w).outer = s.outer := by
  unfold State.sendReceipt
  repeat' first
    | with_reducible rfl
    | split
    | simp
    | (with_reducible refine (outer_foldl ?_ _ _).trans ?_; intro _ _)
    | rfl

@[simp] theorem outer_completeReasm (s : State) (x : Sub) (c : Fin 3) (g : Frame) (r : Fin 4) :
    (State.completeReasm s x c g r).outer = s.outer := by
  unfold State.completeReasm
  repeat' first
    | with_reducible rfl
    | split
    | simp
    | (with_reducible refine (outer_foldl ?_ _ _).trans ?_; intro _ _)
    | rfl

@[simp] theorem outer_storeSegment (s : State) (x : Sub) (c : Fin 3) (g : Frame) (r : Fin 4) (ref : Ref) (i : Fin 8) (last : Bool) (payload : List Byte) :
    (State.storeSegment s x c g r ref i last payload).outer = s.outer := by
  unfold State.storeSegment
  repeat' first
    | with_reducible rfl
    | split
    | simp
    | (with_reducible refine (outer_foldl ?_ _ _).trans ?_; intro _ _)
    | rfl

@[simp] theorem outer_repeatSegment (s : State) (x : Sub) (c : Fin 3) (g : Frame) (r : Fin 4) (ref : Ref) (i : Fin 8) :
    (State.repeatSegment s x c g r ref i).outer = s.outer := by
  unfold State.repeatSegment
  repeat' first
    | with_reducible rfl
    | split
    | simp
    | (with_reducible refine (outer_foldl ?_ _ _).trans ?_; intro _ _)
    | rfl

@[simp] theorem outer_takeSegment (s : State) (x : Sub) (c : Fin 3) (g : Frame) (ref : Ref) (i : Fin 8) (last : Bool) (payload : List Byte) :
    (State.takeSegment s x c g ref i last payload).outer = s.outer := by
  unfold State.takeSegment
  repeat' first
    | with_reducible rfl
    | split
    | simp
    | (with_reducible refine (outer_foldl ?_ _ _).trans ?_; intro _ _)
    | rfl

@[simp] theorem outer_takeWelcome (s : State) (x : Sub) (c : Fin 3) (ref : Ref) :
    (State.takeWelcome s x c ref).outer = s.outer := by
  unfold State.takeWelcome
  repeat' first
    | with_reducible rfl
    | split
    | simp
    | (with_reducible refine (outer_foldl ?_ _ _).trans ?_; intro _ _)
    | rfl

@[simp] theorem outer_takeControl (s : State) (x : Sub) (c : Fin 3) (f : Frame) (t : Nat) (b : Control) :
    (State.takeControl s x c f t b).outer = s.outer := by
  unfold State.takeControl
  repeat' first
    | with_reducible rfl
    | split
    | simp
    | (with_reducible refine (outer_foldl ?_ _ _).trans ?_; intro _ _)
    | rfl

@[simp] theorem outer_routeControl (s : State) (o : Occ) (tag : Tag) (b : Control) :
    (State.routeControl s o tag b).outer = s.outer := by
  unfold State.routeControl
  repeat' first
    | with_reducible rfl
    | split
    | simp
    | (with_reducible refine (outer_foldl ?_ _ _).trans ?_; intro _ _)
    | rfl

@[simp] theorem outer_routeBlock (s : State) (o : Occ) (b : Option DownBlock) :
    (State.routeBlock s o b).outer = s.outer := by
  unfold State.routeBlock
  repeat' first
    | with_reducible rfl
    | split
    | simp
    | (with_reducible refine (outer_foldl ?_ _ _).trans ?_; intro _ _)
    | rfl

@[simp] theorem outer_routeLevel (s : State) (o : Occ) (level : Nat) :
    (State.routeLevel s o level).outer = s.outer := by
  unfold State.routeLevel
  repeat' first
    | with_reducible rfl
    | split
    | simp
    | (with_reducible refine (outer_foldl ?_ _ _).trans ?_; intro _ _)
    | rfl

end Sys2Proof.Machine
end

