-- ==== Sys2Proof/Laws/Memory.lean ====
section
/-! SUPPORT. The exchange memory's host-written bytes: what a read gives after a write, and that every operation keeps the
canonical form. -/

namespace Sys2Proof.Laws.Memory

open Sys2Proof Sys2Proof.Machine

/-! ### Reading after a write -/

theorem memRead_eq_zero_of_memAbove {m : List Host.Cell} {a : Nat} (hw : memWf m = true) (ha : memAbove a m = true) :
    memRead m a = 0 := by
  induction m with
  | nil => rfl
  | cons c m ih =>
    obtain ⟨k, v⟩ := c
    simp only [memWf, Bool.and_eq_true] at hw
    simp only [memAbove, decide_eq_true_eq] at ha
    have hm : memAbove a m = true := by
      cases m with
      | nil => rfl
      | cons d m => simp only [memAbove, decide_eq_true_eq] at hw ⊢; omega
    rw [memRead, if_neg (by omega), ih hw.2 hm]

theorem memRead_memWrite {m : List Host.Cell} (hw : memWf m = true) (a b : Nat) (v : Byte) :
    memRead (memWrite m a v) b = if b = a then v else memRead m b := by
  induction m with
  | nil =>
    rw [memWrite]
    split
    · rename_i hv; rw [hv, memRead, ite_self]
    · rfl
  | cons c m ih =>
    obtain ⟨k, w⟩ := c
    have hw' := hw
    simp only [memWf, Bool.and_eq_true] at hw'
    rw [memWrite]
    split
    · rename_i h1
      split
      · rename_i hv
        by_cases hb : b = a
        · have h0 : memRead ((k, w) :: m) a = 0 := memRead_eq_zero_of_memAbove hw (decide_eq_true h1)
          rw [if_pos hb, hb, hv, h0]
        · rw [if_neg hb]
      · rfl
    · split
      · rename_i h1 h2
        subst h2
        have h0 : memRead m a = 0 := memRead_eq_zero_of_memAbove hw'.2 hw'.1.2
        split
        · rename_i hv
          by_cases hb : b = a
          · rw [if_pos hb, hb, hv, h0]
          · rw [if_neg hb, memRead, if_neg hb]
        · rw [memRead, memRead]
          by_cases hb : b = a
          · rw [if_pos hb, if_pos hb]
          · rw [if_neg hb, if_neg hb, if_neg hb]
      · rename_i h1 h2
        rw [memRead, memRead, ih hw'.2]
        by_cases hb : b = a
        · rw [if_pos hb, if_pos hb, if_neg (by omega)]
        · rw [if_neg hb, if_neg hb]

/-! ### The canonical form -/

theorem memAbove_memWrite {m : List Host.Cell} {a c : Nat} {v : Byte} (hw : memWf m = true) (ha : memAbove c m = true)
    (h : c < a) : memAbove c (memWrite m a v) = true := by
  cases m with
  | nil => simp only [memWrite]; split <;> simp [memAbove, h]
  | cons d m =>
    obtain ⟨k, w⟩ := d
    simp only [memAbove, decide_eq_true_eq] at ha
    simp only [memWf, Bool.and_eq_true] at hw
    simp only [memWrite]
    split
    · split <;> simp [memAbove, ha, h]
    · split
      · split
        · cases m with
          | nil => rfl
          | cons e m => simp only [memAbove, decide_eq_true_eq] at hw ⊢; omega
        · simp [memAbove, h]
      · simp [memAbove, ha]

theorem memWf_memWrite {m : List Host.Cell} (hw : memWf m = true) (a : Nat) (v : Byte) :
    memWf (memWrite m a v) = true := by
  induction m with
  | nil => simp only [memWrite]; split <;> simp_all [memWf, memAbove]
  | cons d m ih =>
    obtain ⟨k, w⟩ := d
    have hw' := hw
    simp only [memWf, Bool.and_eq_true] at hw'
    simp only [memWrite]
    split
    · split
      · exact hw
      · rename_i h1 h2
        simp only [memWf, memAbove, Bool.and_eq_true, bne_iff_ne, ne_eq, decide_eq_true_eq]
        refine ⟨⟨h2, h1⟩, ⟨?_, hw'.1.2⟩, hw'.2⟩
        simpa using hw'.1.1
    · split
      · split
        · exact hw'.2
        · rename_i h1 h2 h3
          subst h2
          simp only [memWf, Bool.and_eq_true, bne_iff_ne, ne_eq]
          exact ⟨⟨h3, hw'.1.2⟩, hw'.2⟩
      · rename_i h1 h2
        simp only [memWf, Bool.and_eq_true]
        exact ⟨⟨hw'.1.1, memAbove_memWrite hw'.2 hw'.1.2 (by omega)⟩, ih hw'.2⟩

theorem memWf_memWriteLanes {m : List Host.Cell} (hw : memWf m = true) (off : Nat) (lanes : BitVec 4) (d : Word) :
    memWf (memWriteLanes m off lanes d) = true := by
  have step : ∀ (l : List Nat) (m : List Host.Cell), memWf m = true →
      memWf (l.foldl (fun m i => if lanes.getLsbD i then memWrite m (off + i) (wordByte d i) else m) m) = true := by
    intro l
    induction l with
    | nil => intro m h; exact h
    | cons i l ih =>
      intro m h
      rw [List.foldl_cons]
      apply ih
      split
      · exact memWf_memWrite h _ _
      · exact h
  exact step _ m hw

/-- A write of the enabled lanes replaces their bytes and keeps every other. -/
theorem memRead_memWriteLanes {m : List Host.Cell} (hw : memWf m = true) (off : Nat) (lanes : BitVec 4) (d : Word) (a : Nat) :
    memRead (memWriteLanes m off lanes d) a =
      if off ≤ a ∧ a < off + 4 ∧ lanes.getLsbD (a - off) = true then wordByte d (a - off) else memRead m a := by
  have step : ∀ (l : List Nat) (m : List Host.Cell), l.Nodup → memWf m = true →
      memRead (l.foldl (fun m i => if lanes.getLsbD i then memWrite m (off + i) (wordByte d i) else m) m) a =
        if off ≤ a ∧ a - off ∈ l ∧ lanes.getLsbD (a - off) = true then wordByte d (a - off) else memRead m a := by
    intro l
    induction l with
    | nil => intro m _ _; simp
    | cons i l ih =>
      intro m hn h
      rw [List.nodup_cons] at hn
      rw [List.foldl_cons]
      by_cases hl : lanes.getLsbD i = true
      · rw [if_pos hl, ih _ hn.2 (memWf_memWrite h _ _), memRead_memWrite h]
        by_cases ha : a = off + i
        · have e : a - off = i := by omega
          rw [if_pos ha, e, if_neg (fun h => hn.1 h.2.1), if_pos ⟨by omega, List.mem_cons.2 (.inl rfl), hl⟩]
        · have e : a - off = i → ¬ off ≤ a := by omega
          by_cases h2 : off ≤ a
          · have e' : a - off ≠ i := fun e0 => e e0 h2
            simp [ha, h2, e']
          · simp [ha, h2]
      · rw [if_neg hl, ih _ hn.2 h]
        by_cases e : a - off = i
        · simp [e, hl]
        · simp [e]
  have h := step [0, 1, 2, 3] m (by decide) hw
  rw [memWriteLanes, h]
  have e : (off ≤ a ∧ a - off ∈ [0, 1, 2, 3] ∧ lanes.getLsbD (a - off) = true) ↔
      (off ≤ a ∧ a < off + 4 ∧ lanes.getLsbD (a - off) = true) := by
    simp only [List.mem_cons, List.not_mem_nil, or_false]
    constructor
    · rintro ⟨h1, h2, h3⟩; exact ⟨h1, by omega, h3⟩
    · rintro ⟨h1, h2, h3⟩; exact ⟨h1, by omega, h3⟩
  simp only [e]

/-! ### Which words are held -/

theorem mem_memWrite {m : List Host.Cell} {a : Nat} {v : Byte} {c : Host.Cell} (h : c ∈ memWrite m a v) :
    c = (a, v) ∨ c ∈ m := by
  induction m with
  | nil =>
    simp only [memWrite] at h
    split at h
    · simp at h
    · simp only [List.mem_singleton] at h; exact .inl h
  | cons d m ih =>
    obtain ⟨k, w⟩ := d
    simp only [memWrite] at h
    split at h
    · split at h
      · exact .inr h
      · rcases List.mem_cons.1 h with h | h
        · exact .inl h
        · exact .inr h
    · split at h
      · split at h
        · exact .inr (List.mem_cons_of_mem _ h)
        · rcases List.mem_cons.1 h with h | h
          · exact .inl h
          · exact .inr (List.mem_cons_of_mem _ h)
      · rcases List.mem_cons.1 h with h | h
        · exact .inr (List.mem_cons.2 (.inl h))
        · rcases ih h with h | h
          · exact .inl h
          · exact .inr (List.mem_cons_of_mem _ h)

theorem mem_memWriteLanes {m : List Host.Cell} {off : Nat} {lanes : BitVec 4} {d : Word} {c : Host.Cell}
    (h : c ∈ memWriteLanes m off lanes d) : (∃ i, i < 4 ∧ c.1 = off + i) ∨ c ∈ m := by
  have step : ∀ (l : List Nat) (m : List Host.Cell), (∀ i ∈ l, i < 4) →
      c ∈ l.foldl (fun m i => if lanes.getLsbD i then memWrite m (off + i) (wordByte d i) else m) m →
      (∃ i, i < 4 ∧ c.1 = off + i) ∨ c ∈ m := by
    intro l
    induction l with
    | nil => intro m _ h; exact .inr h
    | cons i l ih =>
      intro m hl h
      rw [List.foldl_cons] at h
      rcases ih _ (fun j hj => hl j (List.mem_cons_of_mem _ hj)) h with h | h
      · exact .inl h
      · split at h
        · rcases mem_memWrite h with h | h
          · exact .inl ⟨i, hl i (List.mem_cons.2 (.inl rfl)), by rw [h]⟩
          · exact .inr h
        · exact .inr h
  exact step _ m (by decide) h

/-- The bytes of one word are host-written together. -/
theorem areaOf_byte {w i : Nat} (h : i < 4) : areaOf (4 * w + i) = areaOf (4 * w) := by
  have e : ∀ n, n % 4 = 0 → (4 * w + i < n) = (4 * w < n) := fun n hn => propext ⟨by omega, by omega⟩
  unfold areaOf
  simp only [e 0x100 rfl, e 0x140 rfl, e 0x180 rfl, e 0x200 rfl, e 0x600 rfl, e 0x800 rfl, e 0x1100 rfl, e 0x1200 rfl, e 0x1400 rfl,
    e 0x2000 rfl, e 0x3000 rfl, e 0x3800 rfl, e 0x4000 rfl]

theorem hostWritten_byte {w i : Nat} (h : i < 4) : hostWritten (4 * w + i) = hostWritten (4 * w) := by
  unfold hostWritten
  rw [areaOf_byte h]
  have d : ∀ p q : Prop, [Decidable p] → [Decidable q] → (p ↔ q) → decide p = decide q :=
    fun p q _ _ h => decide_eq_decide.2 h
  generalize areaOf (4 * w) = a
  cases a with
  | none => rfl
  | some a =>
    cases a with
    | setup => rfl
    | power => rfl
    | fault => exact d _ _ (by omega)
    | subs => exact d _ _ (by omega)
    | calls => exact d _ _ (by omega)
    | voice => exact d _ _ (by omega)
    | outbox => exact d _ _ (by omega)
    | inbox => exact d _ _ (by omega)
    | cells =>
      exact congrArg₂ (· && ·) (d _ _ (by omega)) (d _ _ (by omega))

/-- A host write to a host-written word keeps the memory's form. -/
theorem memOk_memWriteLanes {m : List Host.Cell} {w : Nat} {lanes : BitVec 4} {d : Word}
    (hm : (memWf m && m.all fun c => hostWritten c.1) = true) (hw : hostWritten (4 * w) = true) :
    (memWf (memWriteLanes m (4 * w) lanes d) && (memWriteLanes m (4 * w) lanes d).all fun c => hostWritten c.1) = true := by
  rw [Bool.and_eq_true, List.all_eq_true] at hm ⊢
  refine ⟨memWf_memWriteLanes hm.1 _ _ _, fun c hc => ?_⟩
  rcases mem_memWriteLanes hc with ⟨i, hi, h⟩ | h
  · rw [h, hostWritten_byte hi]; exact hw
  · exact hm.2 c h

theorem memOk_reset : State.reset.memOk = true := by decide

end Sys2Proof.Laws.Memory
end

