-- ==== Sys2Proof/WellFormed.lean ====
section
/-! DEFINITION. Well-formed commands: the operands the manual gives each command. The meanings are total all the same; a
command that is not well-formed is one no sender of the manual gives. -/

namespace Sys2Proof

open Sys2Proof.Machine

/-- A byte string's length lies in a range. -/
def lengthIn (lo hi : Nat) (b : List Byte) : Bool := decide (lo ≤ b.length) && decide (b.length ≤ hi)

/-- The register words that a write acts on: CONTROL, SCAN, PENDING, ENABLE (11.1). -/
def liveRegister (word : BitVec 15) : Bool := [0x4001, 0x4002, 0x4003, 0x4004].contains word.toNat

/-- A write to a register word has nothing to act on: the word is none of those, or it is CONTROL and the lane of its two bits is
not enabled (R182; notes/assumptions/25.md). -/
def writesNothing (word : BitVec 15) (lanes : BitVec 4) : Bool :=
  !liveRegister word || (word == 0x4001 && !lanes.getLsbD 0)

/-- A port word is outside exchange memory (11.1): port word n is at port offset 4n. -/
def outsideMemory (word : BitVec 15) : Bool := decide (0x4000 ≤ word.toNat)

/-- A beacon's fields lie in the ranges of R3; its lists may hold entries the part disregards. -/
def Beacon.ok (b : Beacon) : Bool := decide (b.mismatch ≤ 16)

/-- A command is well-formed. -/
def Instr.wf : Instr → Bool
  | .hostMemoryWrite _ _ lanes _ => lanes != 0
  | .scanWrite _ w | .pendingWrite _ w | .enableWrite _ w => w.lanes != 0
  | .ignoredRegisterWrite _ word w => outsideMemory word && writesNothing word w.lanes && w.lanes != 0
  | .noEffectScanTake _ a => noEffectArea a
  | .beaconReport _ _ b => b.ok
  | .blockReport _ _ (some (.voice p)) _ => lengthIn 0 255 p
  | .seekDeadline _ _ r _ => isSeek r
  | _ => true

/-- The queue holds well-formed commands. -/
def pendingWf (q : List Instr) : Bool := q.all Instr.wf

end Sys2Proof
end

