-- ==== Sys2Proof/Laws/PerInstr.lean ====
section
/-! SUPPORT. The per-command family `Timed`: a command's time is its first operand and says nothing of the rest. Another time
put in is read back, leaves the command as well-formed and of its kind as it was, and its own time put in changes nothing
(notes/assumptions/1.md). -/

namespace Sys2Proof.Laws

open Sys2Proof Sys2Proof.Machine

/-- A command with another time before it. -/
def withDelay (n : Nat) : Instr → Instr
  | .powerOn _ => .powerOn n
  | .resetPinAssert _ => .resetPinAssert n
  | .resetPinRelease _ => .resetPinRelease n
  | .softReset _ x1 => .softReset n x1
  | .start _ => .start n
  | .runningEntry _ => .runningEntry n
  | .stop _ => .stop n
  | .hostMemoryWrite _ x1 x2 x3 => .hostMemoryWrite n x1 x2 x3
  | .ignoredRegisterWrite _ x1 x2 => .ignoredRegisterWrite n x1 x2
  | .scanWrite _ x1 => .scanWrite n x1
  | .pendingWrite _ x1 => .pendingWrite n x1
  | .enableWrite _ x1 => .enableWrite n x1
  | .clockLoRead _ => .clockLoRead n
  | .subsScanTake _ => .subsScanTake n
  | .cellsScanTake _ => .cellsScanTake n
  | .callsScanTake _ => .callsScanTake n
  | .outboxScanTake _ => .outboxScanTake n
  | .inboxScanTake _ => .inboxScanTake n
  | .faultScanTake _ => .faultScanTake n
  | .noEffectScanTake _ x1 => .noEffectScanTake n x1
  | .txInhibitAssert _ => .txInhibitAssert n
  | .txInhibitRelease _ => .txInhibitRelease n
  | .commandIssue _ x1 => .commandIssue n x1
  | .occupancySilent _ x1 => .occupancySilent n x1
  | .beaconReport _ x1 x2 => .beaconReport n x1 x2
  | .nothingReport _ x1 => .nothingReport n x1
  | .blockReport _ x1 x2 x3 => .blockReport n x1 x2 x3
  | .levelReport _ x1 x2 => .levelReport n x1 x2
  | .sentReport _ x1 => .sentReport n x1
  | .planningEvent _ x1 => .planningEvent n x1
  | .windowedPlanningEvent _ x1 => .windowedPlanningEvent n x1
  | .seekPlanningEvent _ x1 => .seekPlanningEvent n x1
  | .frameBaseWrite _ x1 => .frameBaseWrite n x1
  | .downlinkCellWrite _ x1 x2 => .downlinkCellWrite n x1 x2
  | .holdoverEntry _ x1 => .holdoverEntry n x1
  | .loss _ x1 => .loss n x1
  | .windowsMissed _ x1 => .windowsMissed n x1
  | .failRun _ x1 => .failRun n x1
  | .linkFailure _ x1 => .linkFailure n x1
  | .seekDeadline _ x1 x2 x3 => .seekDeadline n x1 x2 x3
  | .lostRetry _ x1 => .lostRetry n x1
  | .listenPeriodEnd _ x1 => .listenPeriodEnd n x1
  | .ringingExpiry _ x1 => .ringingExpiry n x1
  | .accessTimerExpiry _ x1 => .accessTimerExpiry n x1
  | .releaseTimerExpiry _ x1 => .releaseTimerExpiry n x1
  | .reportTimerExpiry _ x1 => .reportTimerExpiry n x1
  | .leave _ x1 => .leave n x1
  | .arriveTimeout _ x1 => .arriveTimeout n x1
  | .secondFailure _ x1 => .secondFailure n x1
  | .ackWindowClose _ x1 => .ackWindowClose n x1
  | .noAck _ x1 => .noAck n x1
  | .restartLimit _ x1 => .restartLimit n x1
  | .pauseExpiry _ x1 => .pauseExpiry n x1
  | .reassemblyTimeout _ x1 => .reassemblyTimeout n x1
  | .napEnd _ => .napEnd n
  | .slowTimerExpiry _ => .slowTimerExpiry n
  | .wakingEnd _ => .wakingEnd n

/-- What `Timed` says of a command. -/
def Timed.Statement (i : Instr) : Prop :=
  ∀ n : Nat, delay (withDelay n i) = n ∧ (withDelay n i).wf = i.wf ∧ isTake (withDelay n i) = isTake i ∧
    isBlockCommand (withDelay n i) = isBlockCommand i ∧ withDelay (delay i) i = i

theorem Timed.powerOn (after : Nat) : Timed.Statement (.powerOn after) :=
  fun _ => ⟨rfl, rfl, rfl, rfl, rfl⟩
theorem Timed.resetPinAssert (after : Nat) : Timed.Statement (.resetPinAssert after) :=
  fun _ => ⟨rfl, rfl, rfl, rfl, rfl⟩
theorem Timed.resetPinRelease (after : Nat) : Timed.Statement (.resetPinRelease after) :=
  fun _ => ⟨rfl, rfl, rfl, rfl, rfl⟩
theorem Timed.softReset (after : Nat) (runBit : Bool) : Timed.Statement (.softReset after runBit) :=
  fun _ => ⟨rfl, rfl, rfl, rfl, rfl⟩
theorem Timed.start (after : Nat) : Timed.Statement (.start after) :=
  fun _ => ⟨rfl, rfl, rfl, rfl, rfl⟩
theorem Timed.runningEntry (after : Nat) : Timed.Statement (.runningEntry after) :=
  fun _ => ⟨rfl, rfl, rfl, rfl, rfl⟩
theorem Timed.stop (after : Nat) : Timed.Statement (.stop after) :=
  fun _ => ⟨rfl, rfl, rfl, rfl, rfl⟩
theorem Timed.hostMemoryWrite (after : Nat) (word : BitVec 14) (lanes : BitVec 4) (data : Word) : Timed.Statement (.hostMemoryWrite after word lanes data) :=
  fun _ => ⟨rfl, rfl, rfl, rfl, rfl⟩
theorem Timed.ignoredRegisterWrite (after : Nat) (word : BitVec 15) (written : LaneWord) : Timed.Statement (.ignoredRegisterWrite after word written) :=
  fun _ => ⟨rfl, rfl, rfl, rfl, rfl⟩
theorem Timed.scanWrite (after : Nat) (written : LaneWord) : Timed.Statement (.scanWrite after written) :=
  fun _ => ⟨rfl, rfl, rfl, rfl, rfl⟩
theorem Timed.pendingWrite (after : Nat) (written : LaneWord) : Timed.Statement (.pendingWrite after written) :=
  fun _ => ⟨rfl, rfl, rfl, rfl, rfl⟩
theorem Timed.enableWrite (after : Nat) (written : LaneWord) : Timed.Statement (.enableWrite after written) :=
  fun _ => ⟨rfl, rfl, rfl, rfl, rfl⟩
theorem Timed.clockLoRead (after : Nat) : Timed.Statement (.clockLoRead after) :=
  fun _ => ⟨rfl, rfl, rfl, rfl, rfl⟩
theorem Timed.subsScanTake (after : Nat) : Timed.Statement (.subsScanTake after) :=
  fun _ => ⟨rfl, rfl, rfl, rfl, rfl⟩
theorem Timed.cellsScanTake (after : Nat) : Timed.Statement (.cellsScanTake after) :=
  fun _ => ⟨rfl, rfl, rfl, rfl, rfl⟩
theorem Timed.callsScanTake (after : Nat) : Timed.Statement (.callsScanTake after) :=
  fun _ => ⟨rfl, rfl, rfl, rfl, rfl⟩
theorem Timed.outboxScanTake (after : Nat) : Timed.Statement (.outboxScanTake after) :=
  fun _ => ⟨rfl, rfl, rfl, rfl, rfl⟩
theorem Timed.inboxScanTake (after : Nat) : Timed.Statement (.inboxScanTake after) :=
  fun _ => ⟨rfl, rfl, rfl, rfl, rfl⟩
theorem Timed.faultScanTake (after : Nat) : Timed.Statement (.faultScanTake after) :=
  fun _ => ⟨rfl, rfl, rfl, rfl, rfl⟩
theorem Timed.noEffectScanTake (after : Nat) (area : Area) : Timed.Statement (.noEffectScanTake after area) :=
  fun _ => ⟨rfl, rfl, rfl, rfl, rfl⟩
theorem Timed.txInhibitAssert (after : Nat) : Timed.Statement (.txInhibitAssert after) :=
  fun _ => ⟨rfl, rfl, rfl, rfl, rfl⟩
theorem Timed.txInhibitRelease (after : Nat) : Timed.Statement (.txInhibitRelease after) :=
  fun _ => ⟨rfl, rfl, rfl, rfl, rfl⟩
theorem Timed.commandIssue (after : Nat) (handle : Handle) : Timed.Statement (.commandIssue after handle) :=
  fun _ => ⟨rfl, rfl, rfl, rfl, rfl⟩
theorem Timed.occupancySilent (after : Nat) (handle : Handle) : Timed.Statement (.occupancySilent after handle) :=
  fun _ => ⟨rfl, rfl, rfl, rfl, rfl⟩
theorem Timed.beaconReport (after : Nat) (handle : Handle) (beacon : Beacon) : Timed.Statement (.beaconReport after handle beacon) :=
  fun _ => ⟨rfl, rfl, rfl, rfl, rfl⟩
theorem Timed.nothingReport (after : Nat) (handle : Handle) : Timed.Statement (.nothingReport after handle) :=
  fun _ => ⟨rfl, rfl, rfl, rfl, rfl⟩
theorem Timed.blockReport (after : Nat) (handle : Handle) (block : Option DownBlock) (level : Nat) : Timed.Statement (.blockReport after handle block level) :=
  fun _ => ⟨rfl, by cases block with | none => rfl | some b => cases b <;> rfl, rfl, rfl, rfl⟩
theorem Timed.levelReport (after : Nat) (handle : Handle) (level : Nat) : Timed.Statement (.levelReport after handle level) :=
  fun _ => ⟨rfl, rfl, rfl, rfl, rfl⟩
theorem Timed.sentReport (after : Nat) (handle : Handle) : Timed.Statement (.sentReport after handle) :=
  fun _ => ⟨rfl, rfl, rfl, rfl, rfl⟩
theorem Timed.planningEvent (after : Nat) (ctx : Fin 3) : Timed.Statement (.planningEvent after ctx) :=
  fun _ => ⟨rfl, rfl, rfl, rfl, rfl⟩
theorem Timed.windowedPlanningEvent (after : Nat) (ctx : Fin 3) : Timed.Statement (.windowedPlanningEvent after ctx) :=
  fun _ => ⟨rfl, rfl, rfl, rfl, rfl⟩
theorem Timed.seekPlanningEvent (after : Nat) (ctx : Fin 3) : Timed.Statement (.seekPlanningEvent after ctx) :=
  fun _ => ⟨rfl, rfl, rfl, rfl, rfl⟩
theorem Timed.frameBaseWrite (after : Nat) (call : Fin 4) : Timed.Statement (.frameBaseWrite after call) :=
  fun _ => ⟨rfl, rfl, rfl, rfl, rfl⟩
theorem Timed.downlinkCellWrite (after : Nat) (call : Fin 4) (frame : Frame) : Timed.Statement (.downlinkCellWrite after call frame) :=
  fun _ => ⟨rfl, rfl, rfl, rfl, rfl⟩
theorem Timed.holdoverEntry (after : Nat) (ctx : Fin 3) : Timed.Statement (.holdoverEntry after ctx) :=
  fun _ => ⟨rfl, rfl, rfl, rfl, rfl⟩
theorem Timed.loss (after : Nat) (ctx : Fin 3) : Timed.Statement (.loss after ctx) :=
  fun _ => ⟨rfl, rfl, rfl, rfl, rfl⟩
theorem Timed.windowsMissed (after : Nat) (sub : Sub) : Timed.Statement (.windowsMissed after sub) :=
  fun _ => ⟨rfl, rfl, rfl, rfl, rfl⟩
theorem Timed.failRun (after : Nat) (sub : Sub) : Timed.Statement (.failRun after sub) :=
  fun _ => ⟨rfl, rfl, rfl, rfl, rfl⟩
theorem Timed.linkFailure (after : Nat) (sub : Sub) : Timed.Statement (.linkFailure after sub) :=
  fun _ => ⟨rfl, rfl, rfl, rfl, rfl⟩
theorem Timed.seekDeadline (after : Nat) (ctx : Fin 3) (role : Role) (sub : Sub) : Timed.Statement (.seekDeadline after ctx role sub) :=
  fun _ => ⟨rfl, rfl, rfl, rfl, rfl⟩
theorem Timed.lostRetry (after : Nat) (sub : Sub) : Timed.Statement (.lostRetry after sub) :=
  fun _ => ⟨rfl, rfl, rfl, rfl, rfl⟩
theorem Timed.listenPeriodEnd (after : Nat) (sub : Sub) : Timed.Statement (.listenPeriodEnd after sub) :=
  fun _ => ⟨rfl, rfl, rfl, rfl, rfl⟩
theorem Timed.ringingExpiry (after : Nat) (call : Fin 4) : Timed.Statement (.ringingExpiry after call) :=
  fun _ => ⟨rfl, rfl, rfl, rfl, rfl⟩
theorem Timed.accessTimerExpiry (after : Nat) (call : Fin 4) : Timed.Statement (.accessTimerExpiry after call) :=
  fun _ => ⟨rfl, rfl, rfl, rfl, rfl⟩
theorem Timed.releaseTimerExpiry (after : Nat) (call : Fin 4) : Timed.Statement (.releaseTimerExpiry after call) :=
  fun _ => ⟨rfl, rfl, rfl, rfl, rfl⟩
theorem Timed.reportTimerExpiry (after : Nat) (sub : Sub) : Timed.Statement (.reportTimerExpiry after sub) :=
  fun _ => ⟨rfl, rfl, rfl, rfl, rfl⟩
theorem Timed.leave (after : Nat) (sub : Sub) : Timed.Statement (.leave after sub) :=
  fun _ => ⟨rfl, rfl, rfl, rfl, rfl⟩
theorem Timed.arriveTimeout (after : Nat) (sub : Sub) : Timed.Statement (.arriveTimeout after sub) :=
  fun _ => ⟨rfl, rfl, rfl, rfl, rfl⟩
theorem Timed.secondFailure (after : Nat) (sub : Sub) : Timed.Statement (.secondFailure after sub) :=
  fun _ => ⟨rfl, rfl, rfl, rfl, rfl⟩
theorem Timed.ackWindowClose (after : Nat) (sub : Sub) : Timed.Statement (.ackWindowClose after sub) :=
  fun _ => ⟨rfl, rfl, rfl, rfl, rfl⟩
theorem Timed.noAck (after : Nat) (sub : Sub) : Timed.Statement (.noAck after sub) :=
  fun _ => ⟨rfl, rfl, rfl, rfl, rfl⟩
theorem Timed.restartLimit (after : Nat) (sub : Sub) : Timed.Statement (.restartLimit after sub) :=
  fun _ => ⟨rfl, rfl, rfl, rfl, rfl⟩
theorem Timed.pauseExpiry (after : Nat) (sub : Sub) : Timed.Statement (.pauseExpiry after sub) :=
  fun _ => ⟨rfl, rfl, rfl, rfl, rfl⟩
theorem Timed.reassemblyTimeout (after : Nat) (index : Fin 4) : Timed.Statement (.reassemblyTimeout after index) :=
  fun _ => ⟨rfl, rfl, rfl, rfl, rfl⟩
theorem Timed.napEnd (after : Nat) : Timed.Statement (.napEnd after) :=
  fun _ => ⟨rfl, rfl, rfl, rfl, rfl⟩
theorem Timed.slowTimerExpiry (after : Nat) : Timed.Statement (.slowTimerExpiry after) :=
  fun _ => ⟨rfl, rfl, rfl, rfl, rfl⟩
theorem Timed.wakingEnd (after : Nat) : Timed.Statement (.wakingEnd after) :=
  fun _ => ⟨rfl, rfl, rfl, rfl, rfl⟩

end Sys2Proof.Laws
end

