-- ==== Sys2Proof/Laws/Plan.lean ====
section
/-! SUPPORT. The plan list: what conflicts, insertion, withdrawal and admission do to a list free of conflicts and within its
capacity (R38 to R46). -/

namespace Sys2Proof.Machine

theorem Occ.conflicts_comm (o n : Occ) : o.conflicts n = n.conflicts o := by
  unfold Occ.conflicts
  by_cases h : o.channel = n.channel
  · rw [if_pos h, if_pos h.symm, Bool.and_comm]
  · rw [if_neg h, if_neg (fun e => h e.symm), Bool.and_comm]

/-- Conflicts depend on the channel and the interval alone. -/
theorem Occ.conflicts_congr {o o' n n' : Occ} (h : o'.channel = o.channel ∧ o'.start = o.start ∧ o'.stop = o.stop)
    (g : n'.channel = n.channel ∧ n'.start = n.start ∧ n'.stop = n.stop) : o'.conflicts n' = o.conflicts n := by
  simp only [Occ.conflicts, h.1, h.2.1, h.2.2, g.1, g.2.1, g.2.2]

theorem noConflicts_iff {l : List Occ} : noConflicts l = true ↔ l.Pairwise fun o p => o.conflicts p = false := by
  induction l with
  | nil => simp [noConflicts]
  | cons o l ih => simp [noConflicts, List.pairwise_cons, ih]

theorem noConflicts_sublist {l m : List Occ} (h : m.Sublist l) (hl : noConflicts l = true) : noConflicts m = true :=
  noConflicts_iff.2 ((noConflicts_iff.1 hl).sublist h)

theorem length_insertOcc (n : Occ) (l : List Occ) : (insertOcc n l).length = l.length + 1 := by
  induction l with
  | nil => rfl
  | cons o l ih => unfold insertOcc; split <;> simp [ih]

theorem mem_insertOcc {n p : Occ} {l : List Occ} : p ∈ insertOcc n l ↔ p = n ∨ p ∈ l := by
  induction l with
  | nil => simp [insertOcc]
  | cons o l ih =>
    unfold insertOcc
    split
    · simp
    · simp [ih, or_left_comm]

theorem noConflicts_insertOcc {n : Occ} {l : List Occ} (hl : noConflicts l = true)
    (hn : ∀ o ∈ l, o.conflicts n = false) : noConflicts (insertOcc n l) = true := by
  induction l with
  | nil => rfl
  | cons o l ih =>
    have ho := noConflicts_iff.1 hl
    rw [List.pairwise_cons] at ho
    unfold insertOcc
    split
    · rw [noConflicts_iff, List.pairwise_cons]
      exact ⟨fun p hp => by rw [Occ.conflicts_comm]; exact hn p hp, noConflicts_iff.1 hl⟩
    · have ih := ih (noConflicts_iff.2 ho.2) fun p hp => hn p (List.mem_cons_of_mem _ hp)
      rw [noConflicts_iff, List.pairwise_cons]
      refine ⟨fun p hp => ?_, noConflicts_iff.1 ih⟩
      rcases mem_insertOcc.1 hp with rfl | hp
      · exact hn o List.mem_cons_self
      · exact ho.1 p hp

/-- A list whose entries keep their channel and interval, in order, some left out, stays free of conflicts. -/
theorem noConflicts_filterMap {f : Occ → Option Occ}
    (hf : ∀ o o', f o = some o' → o'.channel = o.channel ∧ o'.start = o.start ∧ o'.stop = o.stop) {l : List Occ}
    (hl : noConflicts l = true) : noConflicts (l.filterMap f) = true := by
  rw [noConflicts_iff] at hl ⊢
  rw [List.pairwise_filterMap]
  refine hl.imp fun h b hb c hc => ?_
  rw [Occ.conflicts_congr (hf _ _ hb) (hf _ _ hc)]
  exact h

theorem noConflicts_map {f : Occ → Occ}
    (hf : ∀ o, (f o).channel = o.channel ∧ (f o).start = o.start ∧ (f o).stop = o.stop) {l : List Occ}
    (hl : noConflicts l = true) : noConflicts (l.map f) = true := by
  have h := noConflicts_filterMap (f := fun o => some (f o)) (l := l) (fun o o' e => by cases e; exact hf o) hl
  simpa using h

/-- The list is free of conflicts and within its capacity. -/
def planFine (l : List Occ) : Prop := l.length ≤ planCapacity ∧ noConflicts l = true

theorem planOk_iff {s : State} : s.planOk = true ↔ planFine s.rpl.plan := by simp [State.planOk, planFine]

theorem planFine_nil : planFine [] := ⟨Nat.zero_le _, rfl⟩

theorem planFine_filter (p : Occ → Bool) {l : List Occ} (h : planFine l) : planFine (l.filter p) :=
  ⟨Nat.le_trans (List.length_filter_le p l) h.1, noConflicts_sublist List.filter_sublist h.2⟩

theorem planFine_map {f : Occ → Occ}
    (hf : ∀ o, (f o).channel = o.channel ∧ (f o).start = o.start ∧ (f o).stop = o.stop) {l : List Occ}
    (h : planFine l) : planFine (l.map f) :=
  ⟨by rw [List.length_map]; exact h.1, noConflicts_map hf h.2⟩

theorem without_interval (o : Occ) (x : Sub) :
    (o.without x).channel = o.channel ∧ (o.without x).start = o.start ∧ (o.without x).stop = o.stop := by
  unfold Occ.without
  dsimp only
  split
  · split <;> exact ⟨rfl, rfl, rfl⟩
  · exact ⟨rfl, rfl, rfl⟩

/-- A withdrawal (R38). -/
theorem planFine_withdrawPlan (x : Sub) (p : Occ → Bool) {l : List Occ} (h : planFine l) :
    planFine (withdrawPlan x p l) := by
  refine ⟨Nat.le_trans (List.length_filterMap_le _ l) h.1, noConflicts_filterMap ?_ h.2⟩
  intro o o' e
  dsimp only at e
  split at e
  · split at e
    · cases e
    · cases e; exact without_interval o x
  · cases e; exact ⟨rfl, rfl, rfl⟩

theorem mergeInto_interval (n o : Occ) :
    (mergeInto n o).channel = o.channel ∧ (mergeInto n o).start = o.start ∧ (mergeInto n o).stop = o.stop := by
  have key : ∀ (l : List Sub) (q : Occ),
      let r := l.foldl (fun o x =>
        match n.who.get x with
        | some w =>
          let own := match o.who.get x with
            | some v => v.joined w
            | none => w
          { o with who := o.who.set x (some own), cls := min o.cls w.cls,
                   kind := if w.kind = .paging then .paging else o.kind }
        | none => o) q
      r.channel = q.channel ∧ r.start = q.start ∧ r.stop = q.stop := by
    intro l
    induction l with
    | nil => exact fun q => ⟨rfl, rfl, rfl⟩
    | cons x l ih =>
      intro q
      simp only [List.foldl_cons]
      split
      · exact ih _
      · exact ih _
  exact key allSubs o

theorem length_filter_lt {p : Occ → Bool} {l : List Occ} {o : Occ} (ho : o ∈ l) (hp : p o = false) :
    (l.filter p).length < l.length := by
  induction l with
  | nil => cases ho
  | cons q l ih =>
    by_cases e : o = q
    · subst e
      rw [List.filter_cons, hp]
      exact Nat.lt_succ_of_le (List.length_filter_le p l)
    · have hl : o ∈ l := by simpa [e] using ho
      have := ih hl
      rw [List.filter_cons]
      split
      · simpa using this
      · simp only [List.length_cons]; omega

theorem mem_of_evictee {l : List Occ} {v : Occ} (h : evictee l = some v) : v ∈ l := by
  have key : ∀ (l : List Occ) (b : Option Occ) (P : Occ → Prop), (∀ o, b = some o → P o) → (∀ o ∈ l, P o) →
      ∀ v, l.foldl (fun best o =>
        if o.started then best
        else match best with
          | none => some o
          | some b => if b.cls < o.cls ∨ (b.cls = o.cls ∧ b.start < o.start) then some o else best) b = some v → P v := by
    intro l
    induction l with
    | nil => exact fun b P hb _ v e => hb v e
    | cons o l ih =>
      intro b P hb hl v e
      have ho := hl o List.mem_cons_self
      refine ih _ P ?_ (fun q hq => hl q (List.mem_cons_of_mem _ hq)) v e
      intro q hq
      dsimp only at hq
      split at hq
      · exact hb q hq
      · split at hq
        · cases hq; exact ho
        · split at hq
          · cases hq; exact ho
          · exact hb q hq
  exact key l none (· ∈ l) (fun _ e => nomatch e) (fun _ ho => ho) v h

/-- Admission of a newcomer (R44, R46). -/
theorem planFine_arbitrate (lend : Sub → Nat) (n : Occ) {l : List Occ} (h : planFine l) :
    planFine (arbitrate lend l n).plan := by
  unfold arbitrate
  dsimp only
  split
  · exact h
  · split
    · next hr =>
      have hc : ∃ o ∈ l, o.conflicts n = true := by
        simpa [List.isEmpty_iff, List.filter_eq_nil_iff] using hr
      obtain ⟨o, ho, hoc⟩ := hc
      have hlt := length_filter_lt (p := fun o => !o.conflicts n) ho (by simp [hoc])
      refine ⟨?_, noConflicts_insertOcc (planFine_filter _ h).2 fun p hp => ?_⟩
      · rw [length_insertOcc]; exact Nat.le_trans hlt h.1
      · simpa using (List.mem_filter.1 hp).2
    · next hr =>
      have hn : ∀ o ∈ l, o.conflicts n = false := by
        simpa [List.isEmpty_iff, List.filter_eq_nil_iff] using hr
      split
      · next hc => exact ⟨by rw [length_insertOcc]; exact hc, noConflicts_insertOcc h.2 hn⟩
      · split
        · next v hv =>
          split
          · have hlt := length_filter_lt (p := fun o => o.handle != v.handle) (mem_of_evictee hv) (by simp)
            refine ⟨?_, noConflicts_insertOcc (planFine_filter _ h).2 fun p hp => hn p (List.mem_filter.1 hp).1⟩
            rw [length_insertOcc]; exact Nat.le_trans hlt h.1
          · exact h
        · exact h

end Sys2Proof.Machine
end

