-- ==== Sys2Proof/Laws/PlanOps.lean ====
section
/-! SUPPORT. Every operation of the blocks keeps the plan list free of conflicts and within its capacity (R39, R40). -/

set_option linter.unreachableTactic false
set_option linter.unusedTactic false

namespace Sys2Proof.Machine

/-- What `planOk` asks of the plan list. -/
def listOk (l : List Occ) : Bool := decide (l.length ≤ planCapacity) && noConflicts l

theorem listOk_iff {l : List Occ} : listOk l = true ↔ planFine l := by simp [listOk, planFine]

@[simp] theorem planOk_mk (exm : Exm) (tmu : Tmu) (rpl : Rpl) (sbc : Pair SbcX) (cmu : Pair CellTable) (mbu : Pair MbuX)
    (clu : Clu) (txu : Txu) (pwc : Pwc) (pins : Pins) (pending : List Instr) :
    (State.mk exm tmu rpl sbc cmu mbu clu txu pwc pins pending).planOk = listOk rpl.plan := (rfl)
@[simp] theorem listOk_filter {l : List Occ} (p : Occ → Bool) (h : listOk l = true) : listOk (l.filter p) = true :=
  listOk_iff.2 (planFine_filter p (listOk_iff.1 h))
@[simp] theorem listOk_arbitrate {l : List Occ} (lend : Sub → Nat) (n : Occ) (h : listOk l = true) :
    listOk (arbitrate lend l n).plan = true := listOk_iff.2 (planFine_arbitrate lend n (listOk_iff.1 h))
@[simp] theorem listOk_merge {l : List Occ} (n : Occ) (h : Handle) (hl : listOk l = true) :
    listOk (l.map fun p => if p.handle = h then mergeInto n p else p) = true := by
  refine listOk_iff.2 (planFine_map (fun o => ?_) (listOk_iff.1 hl))
  split
  · exact mergeInto_interval n o
  · exact ⟨rfl, rfl, rfl⟩
@[simp] theorem listOk_start {l : List Occ} (h : Handle) (hl : listOk l = true) :
    listOk (l.map fun p => if p.handle = h then { p with started := true } else p) = true := by
  refine listOk_iff.2 (planFine_map (fun o => ?_) (listOk_iff.1 hl))
  split <;> exact ⟨rfl, rfl, rfl⟩

theorem planOk_foldl {α : Type} {f : State → α → State} (h : ∀ s a, s.planOk = true → (f s a).planOk = true) (l : List α)
    {s : State} (hs : s.planOk = true) : (l.foldl f s).planOk = true := by
  induction l generalizing s with
  | nil => exact hs
  | cons a l ih => exact ih (h s a hs)

theorem planOk_foldl_pair {α β : Type} {f : State × β → α → State × β}
    (h : ∀ p a, p.1.planOk = true → (f p a).1.planOk = true) (l : List α) {p : State × β} (hp : p.1.planOk = true) :
    (l.foldl f p).1.planOk = true := by
  induction l generalizing p with
  | nil => exact hp
  | cons a l ih => exact ih (h p a hp)

/-! ### Updates, none of which touches the plan list -/

@[simp] theorem planOk_modCtx (s : State) (c : Fin 3) (f : Ctx → Ctx) : (s.modCtx c f).planOk = s.planOk := (rfl)
@[simp] theorem planOk_modSbc (s : State) (x : Sub) (f : SbcX → SbcX) : (s.modSbc x f).planOk = s.planOk := (rfl)
@[simp] theorem planOk_modTable (s : State) (x : Sub) (f : CellTable → CellTable) : (s.modTable x f).planOk = s.planOk := (rfl)
@[simp] theorem planOk_modCell (s : State) (x : Sub) (r : Fin 18) (f : CellRec → CellRec) :
    (s.modCell x r f).planOk = s.planOk := (rfl)
@[simp] theorem planOk_modMbu (s : State) (x : Sub) (f : MbuX → MbuX) : (s.modMbu x f).planOk = s.planOk := (rfl)
@[simp] theorem planOk_modMachine (s : State) (x : Sub) (f : HoMachine → HoMachine) :
    (s.modMachine x f).planOk = s.planOk := (rfl)
@[simp] theorem planOk_modCall (s : State) (k : Fin 4) (f : Call → Call) : (s.modCall k f).planOk = s.planOk := (rfl)
@[simp] theorem planOk_modSlot (s : State) (i : Fin 8) (f : OutSlot → OutSlot) : (s.modSlot i f).planOk = s.planOk := (rfl)
@[simp] theorem planOk_modSide (s : State) (x : Sub) (f : SendSide → SendSide) : (s.modSide x f).planOk = s.planOk := (rfl)
@[simp] theorem planOk_modReasm (s : State) (i : Fin 4) (f : Reasm → Reasm) : (s.modReasm i f).planOk = s.planOk := (rfl)
@[simp] theorem planOk_modInbox (s : State) (i : Fin 8) (f : InSlot → InSlot) : (s.modInbox i f).planOk = s.planOk := (rfl)
@[simp] theorem planOk_raise (s : State) (a : Area) : (s.raise a).planOk = s.planOk := (rfl)
@[simp] theorem planOk_raiseIf (s : State) (b : Bool) (a : Area) : (s.raiseIf b a).planOk = s.planOk := by cases b <;> rfl
@[simp] theorem planOk_scanClear (s : State) (a : Area) : (s.scanClear a).planOk = s.planOk := (rfl)
@[simp] theorem planOk_subUpd (s : State) (x : Sub) (f : SubRec → SubRec) : (s.subUpd x f).planOk = s.planOk := (rfl)
@[simp] theorem planOk_subSet (s : State) (x : Sub) (f : SubRec → SubRec) : (s.subSet x f).planOk = s.planOk := by
  unfold State.subSet; split <;> rfl
@[simp] theorem planOk_cellUpd (s : State) (x : Sub) (r : Fin 18) (f : CellRec → CellRec) :
    (s.cellUpd x r f).planOk = s.planOk := (rfl)
@[simp] theorem planOk_cellSet (s : State) (x : Sub) (r : Fin 18) (f : CellRec → CellRec) :
    (s.cellSet x r f).planOk = s.planOk := by
  unfold State.cellSet; split <;> rfl
@[simp] theorem planOk_callUpd (s : State) (k : Fin 4) (f : CallRec → CallRec) : (s.callUpd k f).planOk = s.planOk := (rfl)
@[simp] theorem planOk_callStatusUpd (s : State) (k : Fin 4) (f : CallRec → CallRec) :
    (s.callStatusUpd k f).planOk = s.planOk := by simp [State.callStatusUpd]
@[simp] theorem planOk_slotUpd (s : State) (i : Fin 8) (b : Bool) (f : OutSlot → OutSlot) :
    (s.slotUpd i b f).planOk = s.planOk := by simp [State.slotUpd]
@[simp] theorem planOk_powerUpd (s : State) (b : Bool) (f : Pwc → Pwc) : (s.powerUpd b f).planOk = s.planOk := by
  unfold State.powerUpd; cases b <;> rfl
@[simp] theorem planOk_faultUpd (s : State) (f : FaultRecord → FaultRecord) : (s.faultUpd f).planOk = s.planOk := (rfl)
@[simp] theorem planOk_linkUpd (s : State) (a b : Nat) : (s.linkUpd a b).planOk = s.planOk := by
  unfold State.linkUpd; split <;> rfl
@[simp] theorem planOk_refresh (s : State) : s.refresh.planOk = s.planOk := (rfl)
@[simp] theorem planOk_clearMarks (s : State) : s.clearMarks.planOk = s.planOk := (rfl)

/-! ### The operations, in the order of their files -/

/-! ### Planner -/

@[simp] theorem planOk_withdraw {s : State} (x : Sub) (p : Occ → Bool) (hs : s.planOk = true) :
    (s.withdraw x p).planOk = true := planOk_iff.2 (planFine_withdrawPlan x p (planOk_iff.1 hs))

@[simp] theorem planOk_withdrawAll {s : State} (x : Sub) (hs : s.planOk = true) :
    (State.withdrawAll s x).planOk = true := by
  have hp : listOk s.rpl.plan = true := hs
  unfold State.withdrawAll
  repeat' first
    | with_reducible assumption
    | split
    | simp (maxDischargeDepth := 60) [*]; done
    | (with_reducible refine planOk_foldl ?_ _ ?_; intro _ _ _)
    | simp (maxDischargeDepth := 60) [*]

@[simp] theorem planOk_dropOccs {s : State} (p : Occ → Bool) (hs : s.planOk = true) :
    (s.dropOccs p).planOk = true := planOk_iff.2 (planFine_filter _ (planOk_iff.1 hs))

@[simp] theorem planOk_send (s : State) (c : RadioCommand) : (s.send c).planOk = s.planOk := (rfl)

/-! ### Texts -/

@[simp] theorem planOk_promote {s : State} (x : Sub) (hs : s.planOk = true) :
    (State.promote s x).planOk = true := by
  have hp : listOk s.rpl.plan = true := hs
  unfold State.promote
  repeat' first
    | with_reducible assumption
    | split
    | simp (maxDischargeDepth := 60) [*]; done
    | (with_reducible refine planOk_foldl ?_ _ ?_; intro _ _ _)
    | simp (maxDischargeDepth := 60) [*]

@[simp] theorem planOk_leaveQueue {s : State} (x : Sub) (i : Fin 8) (hs : s.planOk = true) :
    (State.leaveQueue s x i).planOk = true := by
  have hp : listOk s.rpl.plan = true := hs
  unfold State.leaveQueue
  repeat' first
    | with_reducible assumption
    | split
    | simp (maxDischargeDepth := 60) [*]; done
    | (with_reducible refine planOk_foldl ?_ _ ?_; intro _ _ _)
    | simp (maxDischargeDepth := 60) [*]

@[simp] theorem planOk_finishHead {s : State} (x : Sub) (st : OutState) (f : OutSlot → OutSlot) (hs : s.planOk = true) :
    (State.finishHead s x st f).planOk = true := by
  have hp : listOk s.rpl.plan = true := hs
  unfold State.finishHead
  repeat' first
    | with_reducible assumption
    | split
    | simp (maxDischargeDepth := 60) [*]; done
    | (with_reducible refine planOk_foldl ?_ _ ?_; intro _ _ _)
    | simp (maxDischargeDepth := 60) [*]

@[simp] theorem planOk_failHead {s : State} (x : Sub) (c : FailCause) (hs : s.planOk = true) :
    (State.failHead s x c).planOk = true := by
  have hp : listOk s.rpl.plan = true := hs
  unfold State.failHead
  repeat' first
    | with_reducible assumption
    | split
    | simp (maxDischargeDepth := 60) [*]; done
    | (with_reducible refine planOk_foldl ?_ _ ?_; intro _ _ _)
    | simp (maxDischargeDepth := 60) [*]

@[simp] theorem planOk_abandon {s : State} (x : Sub) (hs : s.planOk = true) :
    (State.abandon s x).planOk = true := by
  have hp : listOk s.rpl.plan = true := hs
  unfold State.abandon
  repeat' first
    | with_reducible assumption
    | split
    | simp (maxDischargeDepth := 60) [*]; done
    | (with_reducible refine planOk_foldl ?_ _ ?_; intro _ _ _)
    | simp (maxDischargeDepth := 60) [*]

@[simp] theorem planOk_attemptFailed {s : State} (x : Sub) (e : Frame) (hs : s.planOk = true) :
    (State.attemptFailed s x e).planOk = true := by
  have hp : listOk s.rpl.plan = true := hs
  unfold State.attemptFailed
  repeat' first
    | with_reducible assumption
    | split
    | simp (maxDischargeDepth := 60) [*]; done
    | (with_reducible refine planOk_foldl ?_ _ ?_; intro _ _ _)
    | simp (maxDischargeDepth := 60) [*]

@[simp] theorem planOk_closeWindow {s : State} (x : Sub) (g : Frame) (hs : s.planOk = true) :
    (State.closeWindow s x g).planOk = true := by
  have hp : listOk s.rpl.plan = true := hs
  unfold State.closeWindow
  repeat' first
    | with_reducible assumption
    | split
    | simp (maxDischargeDepth := 60) [*]; done
    | (with_reducible refine planOk_foldl ?_ _ ?_; intro _ _ _)
    | simp (maxDischargeDepth := 60) [*]

@[simp] theorem planOk_segmentOutcome {s : State} (x : Sub) (h : Handle) (ref : Ref) (e : Ending) (hs : s.planOk = true) :
    (State.segmentOutcome s x h ref e).planOk = true := by
  have hp : listOk s.rpl.plan = true := hs
  unfold State.segmentOutcome
  repeat' first
    | with_reducible assumption
    | split
    | simp (maxDischargeDepth := 60) [*]; done
    | (with_reducible refine planOk_foldl ?_ _ ?_; intro _ _ _)
    | simp (maxDischargeDepth := 60) [*]

@[simp] theorem planOk_takeAck {s : State} (x : Sub) (f : Frame) (ref : Ref) (index : Nat) (hs : s.planOk = true) :
    (State.takeAck s x f ref index).planOk = true := by
  have hp : listOk s.rpl.plan = true := hs
  unfold State.takeAck
  repeat' first
    | with_reducible assumption
    | split
    | simp (maxDischargeDepth := 60) [*]; done
    | (with_reducible refine planOk_foldl ?_ _ ?_; intro _ _ _)
    | simp (maxDischargeDepth := 60) [*]

@[simp] theorem planOk_keepOut {s : State} (x : Sub) (hs : s.planOk = true) :
    (State.keepOut s x).planOk = true := by
  have hp : listOk s.rpl.plan = true := hs
  unfold State.keepOut
  repeat' first
    | with_reducible assumption
    | split
    | simp (maxDischargeDepth := 60) [*]; done
    | (with_reducible refine planOk_foldl ?_ _ ?_; intro _ _ _)
    | simp (maxDischargeDepth := 60) [*]

@[simp] theorem planOk_pauseHead {s : State} (x : Sub) (hs : s.planOk = true) :
    (State.pauseHead s x).planOk = true := by
  have hp : listOk s.rpl.plan = true := hs
  unfold State.pauseHead
  repeat' first
    | with_reducible assumption
    | split
    | simp (maxDischargeDepth := 60) [*]; done
    | (with_reducible refine planOk_foldl ?_ _ ?_; intro _ _ _)
    | simp (maxDischargeDepth := 60) [*]

@[simp] theorem planOk_resumeHead {s : State} (x : Sub) (hs : s.planOk = true) :
    (State.resumeHead s x).planOk = true := by
  have hp : listOk s.rpl.plan = true := hs
  unfold State.resumeHead
  repeat' first
    | with_reducible assumption
    | split
    | simp (maxDischargeDepth := 60) [*]; done
    | (with_reducible refine planOk_foldl ?_ _ ?_; intro _ _ _)
    | simp (maxDischargeDepth := 60) [*]

@[simp] theorem planOk_restartHead {s : State} (x : Sub) (hs : s.planOk = true) :
    (State.restartHead s x).planOk = true := by
  have hp : listOk s.rpl.plan = true := hs
  unfold State.restartHead
  repeat' first
    | with_reducible assumption
    | split
    | simp (maxDischargeDepth := 60) [*]; done
    | (with_reducible refine planOk_foldl ?_ _ ?_; intro _ _ _)
    | simp (maxDischargeDepth := 60) [*]

@[simp] theorem planOk_textsBack {s : State} (x : Sub) (changed : Bool) (hs : s.planOk = true) :
    (State.textsBack s x changed).planOk = true := by
  have hp : listOk s.rpl.plan = true := hs
  unfold State.textsBack
  repeat' first
    | with_reducible assumption
    | split
    | simp (maxDischargeDepth := 60) [*]; done
    | (with_reducible refine planOk_foldl ?_ _ ?_; intro _ _ _)
    | simp (maxDischargeDepth := 60) [*]

@[simp] theorem planOk_textsLost {s : State} (x : Sub) (hs : s.planOk = true) :
    (State.textsLost s x).planOk = true := by
  have hp : listOk s.rpl.plan = true := hs
  unfold State.textsLost
  repeat' first
    | with_reducible assumption
    | split
    | simp (maxDischargeDepth := 60) [*]; done
    | (with_reducible refine planOk_foldl ?_ _ ?_; intro _ _ _)
    | simp (maxDischargeDepth := 60) [*]

@[simp] theorem planOk_failQueue {s : State} (x : Sub) (c : FailCause) (hs : s.planOk = true) :
    (s.failQueue x c).planOk = true := by
  unfold State.failQueue
  simp only [planOk_modSide]
  refine planOk_foldl ?_ _ (planOk_withdraw _ _ hs)
  intro s i h
  simpa using h

@[simp] theorem planOk_dropReasm {s : State} (p : Reasm → Bool) (hs : s.planOk = true) :
    (State.dropReasm s p).planOk = true := by
  have hp : listOk s.rpl.plan = true := hs
  unfold State.dropReasm
  repeat' first
    | with_reducible assumption
    | split
    | simp (maxDischargeDepth := 60) [*]; done
    | (with_reducible refine planOk_foldl ?_ _ ?_; intro _ _ _)
    | simp (maxDischargeDepth := 60) [*]

@[simp] theorem planOk_dropCollecting {s : State} (x : Sub) (hs : s.planOk = true) :
    (State.dropCollecting s x).planOk = true := by
  have hp : listOk s.rpl.plan = true := hs
  unfold State.dropCollecting
  repeat' first
    | with_reducible assumption
    | split
    | simp (maxDischargeDepth := 60) [*]; done
    | (with_reducible refine planOk_foldl ?_ _ ?_; intro _ _ _)
    | simp (maxDischargeDepth := 60) [*]

@[simp] theorem planOk_deliverOne {s : State} (hs : s.planOk = true) :
    (State.deliverOne s).planOk = true := by
  have hp : listOk s.rpl.plan = true := hs
  unfold State.deliverOne
  repeat' first
    | with_reducible assumption
    | split
    | simp (maxDischargeDepth := 60) [*]; done
    | (with_reducible refine planOk_foldl ?_ _ ?_; intro _ _ _)
    | simp (maxDischargeDepth := 60) [*]

@[simp] theorem planOk_deliverWaiting {s : State} (hs : s.planOk = true) : s.deliverWaiting.planOk = true :=
  planOk_deliverOne (planOk_deliverOne (planOk_deliverOne (planOk_deliverOne hs)))

@[simp] theorem planOk_receiptOutcome {s : State} (x : Sub) (ref : Ref) (waiter : Option (Fin 4)) (e : Ending) (hs : s.planOk = true) :
    (State.receiptOutcome s x ref waiter e).planOk = true := by
  have hp : listOk s.rpl.plan = true := hs
  unfold State.receiptOutcome
  repeat' first
    | with_reducible assumption
    | split
    | simp (maxDischargeDepth := 60) [*]; done
    | (with_reducible refine planOk_foldl ?_ _ ?_; intro _ _ _)
    | simp (maxDischargeDepth := 60) [*]

@[simp] theorem planOk_dropReceipts {s : State} (x : Sub) (hs : s.planOk = true) :
    (State.dropReceipts s x).planOk = true := by
  have hp : listOk s.rpl.plan = true := hs
  unfold State.dropReceipts
  repeat' first
    | with_reducible assumption
    | split
    | simp (maxDischargeDepth := 60) [*]; done
    | (with_reducible refine planOk_foldl ?_ _ ?_; intro _ _ _)
    | simp (maxDischargeDepth := 60) [*]

/-! ### Voice -/

@[simp] theorem planOk_upWrite {s : State} (k : Fin 4) (f : Frame) (o : UpOutcome) (hs : s.planOk = true) :
    (State.upWrite s k f o).planOk = true := by
  have hp : listOk s.rpl.plan = true := hs
  unfold State.upWrite
  repeat' first
    | with_reducible assumption
    | split
    | simp (maxDischargeDepth := 60) [*]; done
    | (with_reducible refine planOk_foldl ?_ _ ?_; intro _ _ _)
    | simp (maxDischargeDepth := 60) [*]

@[simp] theorem planOk_upFinal {s : State} (k : Fin 4) (f : Frame) (o : UpOutcome) (hs : s.planOk = true) :
    (State.upFinal s k f o).planOk = true := by
  have hp : listOk s.rpl.plan = true := hs
  unfold State.upFinal
  repeat' first
    | with_reducible assumption
    | split
    | simp (maxDischargeDepth := 60) [*]; done
    | (with_reducible refine planOk_foldl ?_ _ ?_; intro _ _ _)
    | simp (maxDischargeDepth := 60) [*]

@[simp] theorem planOk_downWrite {s : State} (k : Fin 4) (p : DownPending) (hs : s.planOk = true) :
    (State.downWrite s k p).planOk = true := by
  have hp : listOk s.rpl.plan = true := hs
  unfold State.downWrite
  repeat' first
    | with_reducible assumption
    | split
    | simp (maxDischargeDepth := 60) [*]; done
    | (with_reducible refine planOk_foldl ?_ _ ?_; intro _ _ _)
    | simp (maxDischargeDepth := 60) [*]

@[simp] theorem planOk_flush {s : State} (k : Fin 4) (p : DownPending → Bool) (hs : s.planOk = true) :
    (State.flush s k p).planOk = true := by
  have hp : listOk s.rpl.plan = true := hs
  unfold State.flush
  repeat' first
    | with_reducible assumption
    | split
    | simp (maxDischargeDepth := 60) [*]; done
    | (with_reducible refine planOk_foldl ?_ _ ?_; intro _ _ _)
    | simp (maxDischargeDepth := 60) [*]

@[simp] theorem planOk_downOutcome {s : State} (k : Fin 4) (f : Frame) (o : DownOutcome) (payload : List Byte) (hs : s.planOk = true) :
    (State.downOutcome s k f o payload).planOk = true := by
  have hp : listOk s.rpl.plan = true := hs
  unfold State.downOutcome
  repeat' first
    | with_reducible assumption
    | split
    | simp (maxDischargeDepth := 60) [*]; done
    | (with_reducible refine planOk_foldl ?_ _ ?_; intro _ _ _)
    | simp (maxDischargeDepth := 60) [*]

@[simp] theorem planOk_expectDown {s : State} (k : Fin 4) (c : Fin 3) (f : Frame) (o : Option DownOutcome) (hs : s.planOk = true) :
    (State.expectDown s k c f o).planOk = true := by
  have hp : listOk s.rpl.plan = true := hs
  unfold State.expectDown
  repeat' first
    | with_reducible assumption
    | split
    | simp (maxDischargeDepth := 60) [*]; done
    | (with_reducible refine planOk_foldl ?_ _ ?_; intro _ _ _)
    | simp (maxDischargeDepth := 60) [*]

@[simp] theorem planOk_takeRef {s : State} (x : Sub) (hs : s.planOk = true) :
    (State.takeRef s x).planOk = true := by
  have hp : listOk s.rpl.plan = true := hs
  unfold State.takeRef
  repeat' first
    | with_reducible assumption
    | split
    | simp (maxDischargeDepth := 60) [*]; done
    | (with_reducible refine planOk_foldl ?_ _ ?_; intro _ _ _)
    | simp (maxDischargeDepth := 60) [*]

@[simp] theorem planOk_setDecline {s : State} (x : Sub) (r : Option Ref) (hs : s.planOk = true) :
    (State.setDecline s x r).planOk = true := by
  have hp : listOk s.rpl.plan = true := hs
  unfold State.setDecline
  repeat' first
    | with_reducible assumption
    | split
    | simp (maxDischargeDepth := 60) [*]; done
    | (with_reducible refine planOk_foldl ?_ _ ?_; intro _ _ _)
    | simp (maxDischargeDepth := 60) [*]

/-! ### Cells -/

@[simp] theorem planOk_setRole {s : State} (x : Sub) (r : Fin 18) (role : CellRole) (hs : s.planOk = true) :
    (State.setRole s x r role).planOk = true := by
  have hp : listOk s.rpl.plan = true := hs
  unfold State.setRole
  repeat' first
    | with_reducible assumption
    | split
    | simp (maxDischargeDepth := 60) [*]; done
    | (with_reducible refine planOk_foldl ?_ _ ?_; intro _ _ _)
    | simp (maxDischargeDepth := 60) [*]

@[simp] theorem planOk_moveRole {s : State} (x : Sub) (old new : CellRole) (hs : s.planOk = true) :
    (State.moveRole s x old new).planOk = true := by
  have hp : listOk s.rpl.plan = true := hs
  unfold State.moveRole
  repeat' first
    | with_reducible assumption
    | split
    | simp (maxDischargeDepth := 60) [*]; done
    | (with_reducible refine planOk_foldl ?_ _ ?_; intro _ _ _)
    | simp (maxDischargeDepth := 60) [*]

@[simp] theorem planOk_dropServing {s : State} (x : Sub) (hs : s.planOk = true) :
    (State.dropServing s x).planOk = true := by
  have hp : listOk s.rpl.plan = true := hs
  unfold State.dropServing
  repeat' first
    | with_reducible assumption
    | split
    | simp (maxDischargeDepth := 60) [*]; done
    | (with_reducible refine planOk_foldl ?_ _ ?_; intro _ _ _)
    | simp (maxDischargeDepth := 60) [*]

@[simp] theorem planOk_dropTarget {s : State} (x : Sub) (hs : s.planOk = true) :
    (State.dropTarget s x).planOk = true := by
  have hp : listOk s.rpl.plan = true := hs
  unfold State.dropTarget
  repeat' first
    | with_reducible assumption
    | split
    | simp (maxDischargeDepth := 60) [*]; done
    | (with_reducible refine planOk_foldl ?_ _ ?_; intro _ _ _)
    | simp (maxDischargeDepth := 60) [*]

@[simp] theorem planOk_giveTarget {s : State} (x : Sub) (r : Fin 18) (hs : s.planOk = true) :
    (State.giveTarget s x r).planOk = true := by
  have hp : listOk s.rpl.plan = true := hs
  unfold State.giveTarget
  repeat' first
    | with_reducible assumption
    | split
    | simp (maxDischargeDepth := 60) [*]; done
    | (with_reducible refine planOk_foldl ?_ _ ?_; intro _ _ _)
    | simp (maxDischargeDepth := 60) [*]

@[simp] theorem planOk_zeroDwell {s : State} (x : Sub) (hs : s.planOk = true) :
    (State.zeroDwell s x).planOk = true := by
  have hp : listOk s.rpl.plan = true := hs
  unfold State.zeroDwell
  repeat' first
    | with_reducible assumption
    | split
    | simp (maxDischargeDepth := 60) [*]; done
    | (with_reducible refine planOk_foldl ?_ _ ?_; intro _ _ _)
    | simp (maxDischargeDepth := 60) [*]

@[simp] theorem planOk_barMark {s : State} (x : Sub) (k : Key) (hs : s.planOk = true) :
    (State.barMark s x k).planOk = true := by
  have hp : listOk s.rpl.plan = true := hs
  unfold State.barMark
  repeat' first
    | with_reducible assumption
    | split
    | simp (maxDischargeDepth := 60) [*]; done
    | (with_reducible refine planOk_foldl ?_ _ ?_; intro _ _ _)
    | simp (maxDischargeDepth := 60) [*]

@[simp] theorem planOk_quietMark {s : State} (x : Sub) (k : Key) (t : Nat) (hs : s.planOk = true) :
    (State.quietMark s x k t).planOk = true := by
  have hp : listOk s.rpl.plan = true := hs
  unfold State.quietMark
  repeat' first
    | with_reducible assumption
    | split
    | simp (maxDischargeDepth := 60) [*]; done
    | (with_reducible refine planOk_foldl ?_ _ ?_; intro _ _ _)
    | simp (maxDischargeDepth := 60) [*]

@[simp] theorem planOk_syncReject {s : State} (x : Sub) (k : Key) (hs : s.planOk = true) :
    (State.syncReject s x k).planOk = true := by
  have hp : listOk s.rpl.plan = true := hs
  unfold State.syncReject
  repeat' first
    | with_reducible assumption
    | split
    | simp (maxDischargeDepth := 60) [*]; done
    | (with_reducible refine planOk_foldl ?_ _ ?_; intro _ _ _)
    | simp (maxDischargeDepth := 60) [*]

@[simp] theorem planOk_sample {s : State} (x : Sub) (k : Key) (raw time : Nat) (served : Bool) (hs : s.planOk = true) :
    (State.sample s x k raw time served).planOk = true := by
  have hp : listOk s.rpl.plan = true := hs
  unfold State.sample
  repeat' first
    | with_reducible assumption
    | split
    | simp (maxDischargeDepth := 60) [*]; done
    | (with_reducible refine planOk_foldl ?_ _ ?_; intro _ _ _)
    | simp (maxDischargeDepth := 60) [*]

@[simp] theorem planOk_clearFailRun {s : State} (x : Sub) (hs : s.planOk = true) :
    (State.clearFailRun s x).planOk = true := by
  have hp : listOk s.rpl.plan = true := hs
  unfold State.clearFailRun
  repeat' first
    | with_reducible assumption
    | split
    | simp (maxDischargeDepth := 60) [*]; done
    | (with_reducible refine planOk_foldl ?_ _ ?_; intro _ _ _)
    | simp (maxDischargeDepth := 60) [*]

@[simp] theorem planOk_followMeasured {s : State} (x : Sub) (old new : Fin 18) (hs : s.planOk = true) :
    (State.followMeasured s x old new).planOk = true := by
  have hp : listOk s.rpl.plan = true := hs
  unfold State.followMeasured
  repeat' first
    | with_reducible assumption
    | split
    | simp (maxDischargeDepth := 60) [*]; done
    | (with_reducible refine planOk_foldl ?_ _ ?_; intro _ _ _)
    | simp (maxDischargeDepth := 60) [*]

@[simp] theorem planOk_follow {s : State} (x : Sub) (old new : Fin 18) (hs : s.planOk = true) :
    (State.follow s x old new).planOk = true := by
  have hp : listOk s.rpl.plan = true := hs
  unfold State.follow
  repeat' first
    | with_reducible assumption
    | split
    | simp (maxDischargeDepth := 60) [*]; done
    | (with_reducible refine planOk_foldl ?_ _ ?_; intro _ _ _)
    | simp (maxDischargeDepth := 60) [*]

@[simp] theorem planOk_takeGuest {s : State} (x : Sub) (g : Fin 18) (f : CellRec → CellRec) (hs : s.planOk = true) :
    (State.takeGuest s x g f).planOk = true := by
  have hp : listOk s.rpl.plan = true := hs
  unfold State.takeGuest
  repeat' first
    | with_reducible assumption
    | split
    | simp (maxDischargeDepth := 60) [*]; done
    | (with_reducible refine planOk_foldl ?_ _ ?_; intro _ _ _)
    | simp (maxDischargeDepth := 60) [*]

@[simp] theorem planOk_moveToGuest {s : State} (x : Sub) (r : Fin 18) (hs : s.planOk = true) :
    (State.moveToGuest s x r).planOk = true := by
  have hp : listOk s.rpl.plan = true := hs
  unfold State.moveToGuest
  repeat' first
    | with_reducible assumption
    | split
    | simp (maxDischargeDepth := 60) [*]; done
    | (with_reducible refine planOk_foldl ?_ _ ?_; intro _ _ _)
    | simp (maxDischargeDepth := 60) [*]

@[simp] theorem planOk_foldGuest {s : State} (x : Sub) (g : Fin 18) (hs : s.planOk = true) :
    (State.foldGuest s x g).planOk = true := by
  have hp : listOk s.rpl.plan = true := hs
  unfold State.foldGuest
  repeat' first
    | with_reducible assumption
    | split
    | simp (maxDischargeDepth := 60) [*]; done
    | (with_reducible refine planOk_foldl ?_ _ ?_; intro _ _ _)
    | simp (maxDischargeDepth := 60) [*]

@[simp] theorem planOk_targetRecord {s : State} (x : Sub) (k : Key) (hs : s.planOk = true) :
    (State.targetRecord s x k).planOk = true := by
  have hp : listOk s.rpl.plan = true := hs
  unfold State.targetRecord
  repeat' first
    | with_reducible assumption
    | split
    | simp (maxDischargeDepth := 60) [*]; done
    | (with_reducible refine planOk_foldl ?_ _ ?_; intro _ _ _)
    | simp (maxDischargeDepth := 60) [*]

@[simp] theorem planOk_completeProbe {s : State} (x : Sub) (r : Fin 18) (level : Option Nat) (hs : s.planOk = true) :
    (State.completeProbe s x r level).planOk = true := by
  have hp : listOk s.rpl.plan = true := hs
  unfold State.completeProbe
  repeat' first
    | with_reducible assumption
    | split
    | simp (maxDischargeDepth := 60) [*]; done
    | (with_reducible refine planOk_foldl ?_ _ ?_; intro _ _ _)
    | simp (maxDischargeDepth := 60) [*]

@[simp] theorem planOk_dropProbes {s : State} (x : Sub) (hs : s.planOk = true) :
    (State.dropProbes s x).planOk = true := by
  have hp : listOk s.rpl.plan = true := hs
  unfold State.dropProbes
  repeat' first
    | with_reducible assumption
    | split
    | simp (maxDischargeDepth := 60) [*]; done
    | (with_reducible refine planOk_foldl ?_ _ ?_; intro _ _ _)
    | simp (maxDischargeDepth := 60) [*]

@[simp] theorem planOk_takeUse {s : State} (x : Sub) (r : Fin 18) (h : CellSettings) (hs : s.planOk = true) :
    (State.takeUse s x r h).planOk = true := by
  have hp : listOk s.rpl.plan = true := hs
  unfold State.takeUse
  repeat' first
    | with_reducible assumption
    | split
    | simp (maxDischargeDepth := 60) [*]; done
    | (with_reducible refine planOk_foldl ?_ _ ?_; intro _ _ _)
    | simp (maxDischargeDepth := 60) [*]

@[simp] theorem planOk_takeStamps {s : State} (x : Sub) (r : Fin 18) (h : CellSettings) (hs : s.planOk = true) :
    (State.takeStamps s x r h).planOk = true := by
  have hp : listOk s.rpl.plan = true := hs
  unfold State.takeStamps
  repeat' first
    | with_reducible assumption
    | split
    | simp (maxDischargeDepth := 60) [*]; done
    | (with_reducible refine planOk_foldl ?_ _ ?_; intro _ _ _)
    | simp (maxDischargeDepth := 60) [*]

@[simp] theorem planOk_takeHostRecord {s : State} (x : Sub) (r : Fin 18) (hs : s.planOk = true) :
    (State.takeHostRecord s x r).planOk = true := by
  have hp : listOk s.rpl.plan = true := hs
  unfold State.takeHostRecord
  repeat' first
    | with_reducible assumption
    | split
    | simp (maxDischargeDepth := 60) [*]; done
    | (with_reducible refine planOk_foldl ?_ _ ?_; intro _ _ _)
    | simp (maxDischargeDepth := 60) [*]

@[simp] theorem planOk_takeTables {s : State} (hs : s.planOk = true) :
    (State.takeTables s).planOk = true := by
  have hp : listOk s.rpl.plan = true := hs
  unfold State.takeTables
  repeat' first
    | with_reducible assumption
    | split
    | simp (maxDischargeDepth := 60) [*]; done
    | (with_reducible refine planOk_foldl ?_ _ ?_; intro _ _ _)
    | simp (maxDischargeDepth := 60) [*]

@[simp] theorem planOk_initTable {s : State} (x : Sub) (hs : s.planOk = true) :
    (State.initTable s x).planOk = true := by
  have hp : listOk s.rpl.plan = true := hs
  unfold State.initTable
  repeat' first
    | with_reducible assumption
    | split
    | simp (maxDischargeDepth := 60) [*]; done
    | (with_reducible refine planOk_foldl ?_ _ ?_; intro _ _ _)
    | simp (maxDischargeDepth := 60) [*]

@[simp] theorem planOk_setPointer {s : State} (x : Sub) (r : Fin 18) (hs : s.planOk = true) :
    (State.setPointer s x r).planOk = true := by
  have hp : listOk s.rpl.plan = true := hs
  unfold State.setPointer
  repeat' first
    | with_reducible assumption
    | split
    | simp (maxDischargeDepth := 60) [*]; done
    | (with_reducible refine planOk_foldl ?_ _ ?_; intro _ _ _)
    | simp (maxDischargeDepth := 60) [*]

/-! ### Deliver -/

@[simp] theorem planOk_lendOutcome {s : State} (x : Sub) (e : Ending) (hs : s.planOk = true) :
    (State.lendOutcome s x e).planOk = true := by
  have hp : listOk s.rpl.plan = true := hs
  unfold State.lendOutcome
  repeat' first
    | with_reducible assumption
    | split
    | simp (maxDischargeDepth := 60) [*]; done
    | (with_reducible refine planOk_foldl ?_ _ ?_; intro _ _ _)
    | simp (maxDischargeDepth := 60) [*]

@[simp] theorem planOk_windowMissed {s : State} (x : Sub) (hs : s.planOk = true) :
    (State.windowMissed s x).planOk = true := by
  have hp : listOk s.rpl.plan = true := hs
  unfold State.windowMissed
  repeat' first
    | with_reducible assumption
    | split
    | simp (maxDischargeDepth := 60) [*]; done
    | (with_reducible refine planOk_foldl ?_ _ ?_; intro _ _ _)
    | simp (maxDischargeDepth := 60) [*]

@[simp] theorem planOk_pagingOutcome {s : State} (x : Sub) (e : Ending) (hs : s.planOk = true) :
    (State.pagingOutcome s x e).planOk = true := by
  have hp : listOk s.rpl.plan = true := hs
  unfold State.pagingOutcome
  repeat' first
    | with_reducible assumption
    | split
    | simp (maxDischargeDepth := 60) [*]; done
    | (with_reducible refine planOk_foldl ?_ _ ?_; intro _ _ _)
    | simp (maxDischargeDepth := 60) [*]

@[simp] theorem planOk_callOutcome {s : State} (k : Fin 4) (o : Occ) (e : Ending) (hs : s.planOk = true) :
    (State.callOutcome s k o e).planOk = true := by
  have hp : listOk s.rpl.plan = true := hs
  unfold State.callOutcome
  repeat' first
    | with_reducible assumption
    | split
    | simp (maxDischargeDepth := 60) [*]; done
    | (with_reducible refine planOk_foldl ?_ _ ?_; intro _ _ _)
    | simp (maxDischargeDepth := 60) [*]

@[simp] theorem planOk_deliverTo {s : State} (o : Occ) (e : Ending) (x : Sub) (hs : s.planOk = true) :
    (State.deliverTo s o e x).planOk = true := by
  have hp : listOk s.rpl.plan = true := hs
  unfold State.deliverTo
  repeat' first
    | with_reducible assumption
    | split
    | simp (maxDischargeDepth := 60) [*]; done
    | (with_reducible refine planOk_foldl ?_ _ ?_; intro _ _ _)
    | simp (maxDischargeDepth := 60) [*]

@[simp] theorem planOk_deliver {s : State} (o : Occ) (e : Ending) (hs : s.planOk = true) :
    (State.deliver s o e).planOk = true := by
  have hp : listOk s.rpl.plan = true := hs
  unfold State.deliver
  repeat' first
    | with_reducible assumption
    | split
    | simp (maxDischargeDepth := 60) [*]; done
    | (with_reducible refine planOk_foldl ?_ _ ?_; intro _ _ _)
    | simp (maxDischargeDepth := 60) [*]

@[simp] theorem planOk_deliverDenials {s : State} (l : List (Occ × Denial)) (hs : s.planOk = true) :
    (State.deliverDenials s l).planOk = true := by
  have hp : listOk s.rpl.plan = true := hs
  unfold State.deliverDenials
  repeat' first
    | with_reducible assumption
    | split
    | simp (maxDischargeDepth := 60) [*]; done
    | (with_reducible refine planOk_foldl ?_ _ ?_; intro _ _ _)
    | simp (maxDischargeDepth := 60) [*]

@[simp] theorem planOk_askDenied {s : State} (n : Occ) (r : Denial) (hs : s.planOk = true) :
    (State.askDenied s n r).planOk = true := by
  have hp : listOk s.rpl.plan = true := hs
  unfold State.askDenied
  repeat' first
    | with_reducible assumption
    | split
    | simp (maxDischargeDepth := 60) [*]; done
    | (with_reducible refine planOk_foldl ?_ _ ?_; intro _ _ _)
    | simp (maxDischargeDepth := 60) [*]

@[simp] theorem planOk_enter {s : State} (n : Occ) (hs : s.planOk = true) :
    (State.enter s n).1.planOk = true := by
  have hp : listOk s.rpl.plan = true := hs
  unfold State.enter
  repeat' first
    | with_reducible assumption
    | split
    | simp (maxDischargeDepth := 60) [*]; done
    | (with_reducible refine planOk_foldl ?_ _ ?_; intro _ _ _)
    | simp (maxDischargeDepth := 60) [*]

@[simp] theorem planOk_ask {s : State} (n : Occ) (hs : s.planOk = true) :
    (State.ask s n).1.planOk = true := by
  have hp : listOk s.rpl.plan = true := hs
  unfold State.ask
  repeat' first
    | with_reducible assumption
    | split
    | simp (maxDischargeDepth := 60) [*]; done
    | (with_reducible refine planOk_foldl ?_ _ ?_; intro _ _ _)
    | simp (maxDischargeDepth := 60) [*]

@[simp] theorem planOk_request {s : State} (n : Occ) (hs : s.planOk = true) :
    (State.request s n).planOk = true := by
  have hp : listOk s.rpl.plan = true := hs
  unfold State.request
  repeat' first
    | with_reducible assumption
    | split
    | simp (maxDischargeDepth := 60) [*]; done
    | (with_reducible refine planOk_foldl ?_ _ ?_; intro _ _ _)
    | simp (maxDischargeDepth := 60) [*]

@[simp] theorem planOk_revoke {s : State} (c : Fin 3) (alloc : Nat) (hs : s.planOk = true) :
    (State.revoke s c alloc).planOk = true := by
  have hp : listOk s.rpl.plan = true := hs
  unfold State.revoke
  repeat' first
    | with_reducible assumption
    | split
    | simp (maxDischargeDepth := 60) [*]; done
    | (with_reducible refine planOk_foldl ?_ _ ?_; intro _ _ _)
    | simp (maxDischargeDepth := 60) [*]

@[simp] theorem planOk_freeCtx {s : State} (c : Fin 3) (hs : s.planOk = true) :
    (State.freeCtx s c).planOk = true := by
  have hp : listOk s.rpl.plan = true := hs
  unfold State.freeCtx
  repeat' first
    | with_reducible assumption
    | split
    | simp (maxDischargeDepth := 60) [*]; done
    | (with_reducible refine planOk_foldl ?_ _ ?_; intro _ _ _)
    | simp (maxDischargeDepth := 60) [*]

@[simp] theorem planOk_withdrawSeek {s : State} (x : Sub) (c : Fin 3) (hs : s.planOk = true) :
    (State.withdrawSeek s x c).planOk = true := by
  have hp : listOk s.rpl.plan = true := hs
  unfold State.withdrawSeek
  repeat' first
    | with_reducible assumption
    | split
    | simp (maxDischargeDepth := 60) [*]; done
    | (with_reducible refine planOk_foldl ?_ _ ?_; intro _ _ _)
    | simp (maxDischargeDepth := 60) [*]

@[simp] theorem planOk_removeUser {s : State} (c : Fin 3) (r : Role) (x : Sub) (hs : s.planOk = true) :
    (State.removeUser s c r x).planOk = true := by
  have hp : listOk s.rpl.plan = true := hs
  unfold State.removeUser
  repeat' first
    | with_reducible assumption
    | split
    | simp (maxDischargeDepth := 60) [*]; done
    | (with_reducible refine planOk_foldl ?_ _ ?_; intro _ _ _)
    | simp (maxDischargeDepth := 60) [*]

@[simp] theorem planOk_cancelDeferred {s : State} (r : Role) (x : Sub) (hs : s.planOk = true) :
    (State.cancelDeferred s r x).planOk = true := by
  have hp : listOk s.rpl.plan = true := hs
  unfold State.cancelDeferred
  repeat' first
    | with_reducible assumption
    | split
    | simp (maxDischargeDepth := 60) [*]; done
    | (with_reducible refine planOk_foldl ?_ _ ?_; intro _ _ _)
    | simp (maxDischargeDepth := 60) [*]

@[simp] theorem planOk_removeRole {s : State} (r : Role) (x : Sub) (hs : s.planOk = true) :
    (State.removeRole s r x).planOk = true := by
  have hp : listOk s.rpl.plan = true := hs
  unfold State.removeRole
  repeat' first
    | with_reducible assumption
    | split
    | simp (maxDischargeDepth := 60) [*]; done
    | (with_reducible refine planOk_foldl ?_ _ ?_; intro _ _ _)
    | simp (maxDischargeDepth := 60) [*]

@[simp] theorem planOk_becomeServing {s : State} (c : Fin 3) (r : Role) (x : Sub) (hs : s.planOk = true) :
    (State.becomeServing s c r x).planOk = true := by
  have hp : listOk s.rpl.plan = true := hs
  unfold State.becomeServing
  repeat' first
    | with_reducible assumption
    | split
    | simp (maxDischargeDepth := 60) [*]; done
    | (with_reducible refine planOk_foldl ?_ _ ?_; intro _ _ _)
    | simp (maxDischargeDepth := 60) [*]

@[simp] theorem planOk_readmit {s : State} (n : Occ) (hs : s.planOk = true) :
    (State.readmit s n).planOk = true := by
  have hp : listOk s.rpl.plan = true := hs
  unfold State.readmit
  repeat' first
    | with_reducible assumption
    | split
    | simp (maxDischargeDepth := 60) [*]; done
    | (with_reducible refine planOk_foldl ?_ _ ?_; intro _ _ _)
    | simp (maxDischargeDepth := 60) [*]

@[simp] theorem planOk_reanchor {s : State} (c : Fin 3) (e : Int) (hs : s.planOk = true) :
    (State.reanchor s c e).planOk = true := by
  have hp : listOk s.rpl.plan = true := hs
  unfold State.reanchor
  repeat' first
    | with_reducible assumption
    | split
    | simp (maxDischargeDepth := 60) [*]; done
    | (with_reducible refine planOk_foldl ?_ _ ?_; intro _ _ _)
    | simp (maxDischargeDepth := 60) [*]

@[simp] theorem planOk_releaseOnSlot {s : State} (x : Sub) (k : Fin 4) (hs : s.planOk = true) :
    (State.releaseOnSlot s x k).planOk = true := by
  have hp : listOk s.rpl.plan = true := hs
  unfold State.releaseOnSlot
  repeat' first
    | with_reducible assumption
    | split
    | simp (maxDischargeDepth := 60) [*]; done
    | (with_reducible refine planOk_foldl ?_ _ ?_; intro _ _ _)
    | simp (maxDischargeDepth := 60) [*]

@[simp] theorem planOk_handSlots {s : State} (g : Staged) (hs : s.planOk = true) :
    (State.handSlots s g).planOk = true := by
  have hp : listOk s.rpl.plan = true := hs
  unfold State.handSlots
  repeat' first
    | with_reducible assumption
    | split
    | simp (maxDischargeDepth := 60) [*]; done
    | (with_reducible refine planOk_foldl ?_ _ ?_; intro _ _ _)
    | simp (maxDischargeDepth := 60) [*]

@[simp] theorem planOk_stage {s : State} (c : Fin 3) (g : Staged) (hs : s.planOk = true) :
    (State.stage s c g).planOk = true := by
  have hp : listOk s.rpl.plan = true := hs
  unfold State.stage
  repeat' first
    | with_reducible assumption
    | split
    | simp (maxDischargeDepth := 60) [*]; done
    | (with_reducible refine planOk_foldl ?_ _ ?_; intro _ _ _)
    | simp (maxDischargeDepth := 60) [*]

@[simp] theorem planOk_unstage {s : State} (k : Fin 4) (hs : s.planOk = true) :
    (State.unstage s k).planOk = true := by
  have hp : listOk s.rpl.plan = true := hs
  unfold State.unstage
  repeat' first
    | with_reducible assumption
    | split
    | simp (maxDischargeDepth := 60) [*]; done
    | (with_reducible refine planOk_foldl ?_ _ ?_; intro _ _ _)
    | simp (maxDischargeDepth := 60) [*]

/-! ### Ranking -/

@[simp] theorem planOk_addHistory {s : State} (x : Sub) (old new : BitVec 16) (k : ChangeKind) (hs : s.planOk = true) :
    (State.addHistory s x old new k).planOk = true := by
  have hp : listOk s.rpl.plan = true := hs
  unfold State.addHistory
  repeat' first
    | with_reducible assumption
    | split
    | simp (maxDischargeDepth := 60) [*]; done
    | (with_reducible refine planOk_foldl ?_ _ ?_; intro _ _ _)
    | simp (maxDischargeDepth := 60) [*]

@[simp] theorem planOk_dwellStep {s : State} (x : Sub) (e : Nat) (barredWindow : Bool) (hs : s.planOk = true) :
    (State.dwellStep s x e barredWindow).planOk = true := by
  have hp : listOk s.rpl.plan = true := hs
  unfold State.dwellStep
  repeat' first
    | with_reducible assumption
    | split
    | simp (maxDischargeDepth := 60) [*]; done
    | (with_reducible refine planOk_foldl ?_ _ ?_; intro _ _ _)
    | simp (maxDischargeDepth := 60) [*]

@[simp] theorem planOk_evaluate {s : State} (x : Sub) (barredWindow : Bool) (hs : s.planOk = true) :
    (State.evaluate s x barredWindow).1.planOk = true := by
  have hp : listOk s.rpl.plan = true := hs
  unfold State.evaluate
  repeat' first
    | with_reducible assumption
    | split
    | simp (maxDischargeDepth := 60) [*]; done
    | (with_reducible refine planOk_foldl ?_ _ ?_; intro _ _ _)
    | simp (maxDischargeDepth := 60) [*]

/-! ### Service -/

theorem planOk_tryJoin {s t : State} {r : Role} {x : Sub} {k : Key} (hs : s.planOk = true)
    (h : s.tryJoin r x k = some t) : t.planOk = true := by
  unfold State.tryJoin at h
  split at h
  · split at h
    · cases h; simpa using hs
    · split at h
      · cases h; simp [hs]
      · cases h
  · split at h
    · cases h; simp [hs]
    · cases h

@[simp] theorem planOk_defer {s : State} (r : Role) (x : Sub) (k : Key) (hs : s.planOk = true) :
    (State.defer s r x k).planOk = true := by
  have hp : listOk s.rpl.plan = true := hs
  unfold State.defer
  repeat' first
    | with_reducible assumption
    | split
    | simp (maxDischargeDepth := 60) [*]; done
    | (with_reducible refine planOk_foldl ?_ _ ?_; intro _ _ _)
    | simp (maxDischargeDepth := 60) [*]

@[simp] theorem planOk_attempt {s : State} (x : Sub) (r : Fin 18) (rest : List (Fin 18)) (hs : s.planOk = true) :
    (s.attempt x r rest).planOk = true := by
  unfold State.attempt
  dsimp only
  split
  · next h => exact planOk_tryJoin (by simpa using hs) h
  · simp [hs]

theorem planOk_tryRecords {s t : State} {x : Sub} {l : List (Fin 18)} (hs : s.planOk = true)
    (h : s.tryRecords x l = some t) : t.planOk = true := by
  induction l with
  | nil => cases h
  | cons r l ih =>
    unfold State.tryRecords at h
    split at h
    · cases h; simp [hs]
    · exact ih h

@[simp] theorem planOk_enterLost {s : State} (x : Sub) (c : ServiceCause) (hs : s.planOk = true) :
    (s.enterLost x c).planOk = true := by
  simp [State.enterLost, hs]


@[simp] theorem planOk_beginPass {s : State} (x : Sub) (hs : s.planOk = true) : (s.beginPass x).planOk = true := by
  unfold State.beginPass
  dsimp only
  split
  · next h => exact planOk_tryRecords (by simpa using hs) h
  · simp [hs]

@[simp] theorem planOk_nextAttempt {s : State} (x : Sub) (hs : s.planOk = true) : (s.nextAttempt x).planOk = true := by
  unfold State.nextAttempt
  split
  · exact hs
  · dsimp only
    split
    · next h => exact planOk_tryRecords (by simpa using hs) h
    · split <;> simp [hs]

@[simp] theorem planOk_searchPreempted {s : State} (x : Sub) (hs : s.planOk = true) :
    (State.searchPreempted s x).planOk = true := by
  have hp : listOk s.rpl.plan = true := hs
  unfold State.searchPreempted
  repeat' first
    | with_reducible assumption
    | split
    | simp (maxDischargeDepth := 60) [*]; done
    | (with_reducible refine planOk_foldl ?_ _ ?_; intro _ _ _)
    | simp (maxDischargeDepth := 60) [*]

@[simp] theorem planOk_tellPreempted {s : State} (u : User) (k : Key) (hs : s.planOk = true) :
    (State.tellPreempted s u k).planOk = true := by
  have hp : listOk s.rpl.plan = true := hs
  unfold State.tellPreempted
  repeat' first
    | with_reducible assumption
    | split
    | simp (maxDischargeDepth := 60) [*]; done
    | (with_reducible refine planOk_foldl ?_ _ ?_; intro _ _ _)
    | simp (maxDischargeDepth := 60) [*]

@[simp] theorem planOk_preempt {s : State} (c : Fin 3) (u : User) (r : Role) (x : Sub) (k : Key) (hs : s.planOk = true) :
    (State.preempt s c u r x k).planOk = true := by
  have hp : listOk s.rpl.plan = true := hs
  unfold State.preempt
  repeat' first
    | with_reducible assumption
    | split
    | simp (maxDischargeDepth := 60) [*]; done
    | (with_reducible refine planOk_foldl ?_ _ ?_; intro _ _ _)
    | simp (maxDischargeDepth := 60) [*]

@[simp] theorem planOk_allocate {s : State} (r : Role) (x : Sub) (k : Key) (hs : s.planOk = true) :
    (s.allocate r x k).planOk = true := by
  unfold State.allocate
  split
  · next h => exact planOk_tryJoin hs h
  · split
    · simp [hs]
    · split <;> simp [hs]

@[simp] theorem planOk_retry {s : State} (p : Deferred → Bool) (hs : s.planOk = true) :
    (State.retry s p).planOk = true := by
  have hp : listOk s.rpl.plan = true := hs
  unfold State.retry
  repeat' first
    | with_reducible assumption
    | split
    | simp (maxDischargeDepth := 60) [*]; done
    | (with_reducible refine planOk_foldl ?_ _ ?_; intro _ _ _)
    | simp (maxDischargeDepth := 60) [*]

@[simp] theorem planOk_nameWindow {s : State} (x : Sub) (f : Frame) (hs : s.planOk = true) :
    (State.nameWindow s x f).planOk = true := by
  have hp : listOk s.rpl.plan = true := hs
  unfold State.nameWindow
  repeat' first
    | with_reducible assumption
    | split
    | simp (maxDischargeDepth := 60) [*]; done
    | (with_reducible refine planOk_foldl ?_ _ ?_; intro _ _ _)
    | simp (maxDischargeDepth := 60) [*]

@[simp] theorem planOk_nameWindowIn {s : State} (x : Sub) (c : Fin 3) (f : Frame) (hs : s.planOk = true) :
    (State.nameWindowIn s x c f).planOk = true := by
  have hp : listOk s.rpl.plan = true := hs
  unfold State.nameWindowIn
  repeat' first
    | with_reducible assumption
    | split
    | simp (maxDischargeDepth := 60) [*]; done
    | (with_reducible refine planOk_foldl ?_ _ ?_; intro _ _ _)
    | simp (maxDischargeDepth := 60) [*]

@[simp] theorem planOk_noWindow {s : State} (x : Sub) (hs : s.planOk = true) :
    (State.noWindow s x).planOk = true := by
  have hp : listOk s.rpl.plan = true := hs
  unfold State.noWindow
  repeat' first
    | with_reducible assumption
    | split
    | simp (maxDischargeDepth := 60) [*]; done
    | (with_reducible refine planOk_foldl ?_ _ ?_; intro _ _ _)
    | simp (maxDischargeDepth := 60) [*]

@[simp] theorem planOk_listenFrom {s : State} (x : Sub) (f : Frame) (hs : s.planOk = true) :
    (State.listenFrom s x f).planOk = true := by
  have hp : listOk s.rpl.plan = true := hs
  unfold State.listenFrom
  repeat' first
    | with_reducible assumption
    | split
    | simp (maxDischargeDepth := 60) [*]; done
    | (with_reducible refine planOk_foldl ?_ _ ?_; intro _ _ _)
    | simp (maxDischargeDepth := 60) [*]

@[simp] theorem planOk_endListen {s : State} (x : Sub) (hs : s.planOk = true) :
    (State.endListen s x).planOk = true := by
  have hp : listOk s.rpl.plan = true := hs
  unfold State.endListen
  repeat' first
    | with_reducible assumption
    | split
    | simp (maxDischargeDepth := 60) [*]; done
    | (with_reducible refine planOk_foldl ?_ _ ?_; intro _ _ _)
    | simp (maxDischargeDepth := 60) [*]

@[simp] theorem planOk_areaTest {s : State} (x : Sub) (area : BitVec 12) (hs : s.planOk = true) :
    (State.areaTest s x area).planOk = true := by
  have hp : listOk s.rpl.plan = true := hs
  unfold State.areaTest
  repeat' first
    | with_reducible assumption
    | split
    | simp (maxDischargeDepth := 60) [*]; done
    | (with_reducible refine planOk_foldl ?_ _ ?_; intro _ _ _)
    | simp (maxDischargeDepth := 60) [*]

@[simp] theorem planOk_dropReselection {s : State} (x : Sub) (hs : s.planOk = true) :
    (State.dropReselection s x).planOk = true := by
  have hp : listOk s.rpl.plan = true := hs
  unfold State.dropReselection
  repeat' first
    | with_reducible assumption
    | split
    | simp (maxDischargeDepth := 60) [*]; done
    | (with_reducible refine planOk_foldl ?_ _ ?_; intro _ _ _)
    | simp (maxDischargeDepth := 60) [*]

@[simp] theorem planOk_discardRanking {s : State} (x : Sub) (hs : s.planOk = true) :
    (State.discardRanking s x).planOk = true := by
  have hp : listOk s.rpl.plan = true := hs
  unfold State.discardRanking
  repeat' first
    | with_reducible assumption
    | split
    | simp (maxDischargeDepth := 60) [*]; done
    | (with_reducible refine planOk_foldl ?_ _ ?_; intro _ _ _)
    | simp (maxDischargeDepth := 60) [*]

@[simp] theorem planOk_resetMachine {s : State} (x : Sub) (m : MachineState) (hs : s.planOk = true) :
    (State.resetMachine s x m).planOk = true := by
  have hp : listOk s.rpl.plan = true := hs
  unfold State.resetMachine
  repeat' first
    | with_reducible assumption
    | split
    | simp (maxDischargeDepth := 60) [*]; done
    | (with_reducible refine planOk_foldl ?_ _ ?_; intro _ _ _)
    | simp (maxDischargeDepth := 60) [*]

@[simp] theorem planOk_dropUplinks {s : State} (k : Fin 4) (hs : s.planOk = true) :
    (State.dropUplinks s k).planOk = true := by
  have hp : listOk s.rpl.plan = true := hs
  unfold State.dropUplinks
  repeat' first
    | with_reducible assumption
    | split
    | simp (maxDischargeDepth := 60) [*]; done
    | (with_reducible refine planOk_foldl ?_ _ ?_; intro _ _ _)
    | simp (maxDischargeDepth := 60) [*]

@[simp] theorem planOk_closeCall {s : State} (k : Fin 4) (cause : CallCause) (byte : BitVec 8) (hs : s.planOk = true) :
    (State.closeCall s k cause byte).planOk = true := by
  have hp : listOk s.rpl.plan = true := hs
  unfold State.closeCall
  repeat' first
    | with_reducible assumption
    | split
    | simp (maxDischargeDepth := 60) [*]; done
    | (with_reducible refine planOk_foldl ?_ _ ?_; intro _ _ _)
    | simp (maxDischargeDepth := 60) [*]

@[simp] theorem planOk_disableRinging {s : State} (x : Sub) (hs : s.planOk = true) :
    (State.disableRinging s x).planOk = true := by
  have hp : listOk s.rpl.plan = true := hs
  unfold State.disableRinging
  repeat' first
    | with_reducible assumption
    | split
    | simp (maxDischargeDepth := 60) [*]; done
    | (with_reducible refine planOk_foldl ?_ _ ?_; intro _ _ _)
    | simp (maxDischargeDepth := 60) [*]

@[simp] theorem planOk_leaveCell {s : State} (x : Sub) (hs : s.planOk = true) :
    (State.leaveCell s x).planOk = true := by
  have hp : listOk s.rpl.plan = true := hs
  unfold State.leaveCell
  repeat' first
    | with_reducible assumption
    | split
    | simp (maxDischargeDepth := 60) [*]; done
    | (with_reducible refine planOk_foldl ?_ _ ?_; intro _ _ _)
    | simp (maxDischargeDepth := 60) [*]

@[simp] theorem planOk_goOff {s : State} (x : Sub) (hs : s.planOk = true) :
    (State.goOff s x).planOk = true := by
  have hp : listOk s.rpl.plan = true := hs
  unfold State.goOff
  repeat' first
    | with_reducible assumption
    | split
    | simp (maxDischargeDepth := 60) [*]; done
    | (with_reducible refine planOk_foldl ?_ _ ?_; intro _ _ _)
    | simp (maxDischargeDepth := 60) [*]

@[simp] theorem planOk_enterSearching {s : State} (x : Sub) (c : ServiceCause) (hs : s.planOk = true) :
    (State.enterSearching s x c).planOk = true := by
  have hp : listOk s.rpl.plan = true := hs
  unfold State.enterSearching
  repeat' first
    | with_reducible assumption
    | split
    | simp (maxDischargeDepth := 60) [*]; done
    | (with_reducible refine planOk_foldl ?_ _ ?_; intro _ _ _)
    | simp (maxDischargeDepth := 60) [*]

@[simp] theorem planOk_searchOrOff {s : State} (x : Sub) (c : ServiceCause) (hs : s.planOk = true) :
    (State.searchOrOff s x c).planOk = true := by
  have hp : listOk s.rpl.plan = true := hs
  unfold State.searchOrOff
  repeat' first
    | with_reducible assumption
    | split
    | simp (maxDischargeDepth := 60) [*]; done
    | (with_reducible refine planOk_foldl ?_ _ ?_; intro _ _ _)
    | simp (maxDischargeDepth := 60) [*]

@[simp] theorem planOk_camp {s : State} (x : Sub) (r : Fin 18) (c : Fin 3) (f : Frame) (area : BitVec 12) (hs : s.planOk = true) :
    (State.camp s x r c f area).planOk = true := by
  have hp : listOk s.rpl.plan = true := hs
  unfold State.camp
  repeat' first
    | with_reducible assumption
    | split
    | simp (maxDischargeDepth := 60) [*]; done
    | (with_reducible refine planOk_foldl ?_ _ ?_; intro _ _ _)
    | simp (maxDischargeDepth := 60) [*]

@[simp] theorem planOk_connect {s : State} (x : Sub) (hs : s.planOk = true) :
    (State.connect s x).planOk = true := by
  have hp : listOk s.rpl.plan = true := hs
  unfold State.connect
  repeat' first
    | with_reducible assumption
    | split
    | simp (maxDischargeDepth := 60) [*]; done
    | (with_reducible refine planOk_foldl ?_ _ ?_; intro _ _ _)
    | simp (maxDischargeDepth := 60) [*]

@[simp] theorem planOk_backToCamped {s : State} (x : Sub) (hs : s.planOk = true) :
    (State.backToCamped s x).planOk = true := by
  have hp : listOk s.rpl.plan = true := hs
  unfold State.backToCamped
  repeat' first
    | with_reducible assumption
    | split
    | simp (maxDischargeDepth := 60) [*]; done
    | (with_reducible refine planOk_foldl ?_ _ ?_; intro _ _ _)
    | simp (maxDischargeDepth := 60) [*]

@[simp] theorem planOk_endCall {s : State} (k : Fin 4) (cause : CallCause) (byte : BitVec 8) (hs : s.planOk = true) :
    (State.endCall s k cause byte).planOk = true := by
  have hp : listOk s.rpl.plan = true := hs
  unfold State.endCall
  repeat' first
    | with_reducible assumption
    | split
    | simp (maxDischargeDepth := 60) [*]; done
    | (with_reducible refine planOk_foldl ?_ _ ?_; intro _ _ _)
    | simp (maxDischargeDepth := 60) [*]

@[simp] theorem planOk_dropCall {s : State} (x : Sub) (cause : CallCause) (service : ServiceCause) (hs : s.planOk = true) :
    (State.dropCall s x cause service).planOk = true := by
  have hp : listOk s.rpl.plan = true := hs
  unfold State.dropCall
  repeat' first
    | with_reducible assumption
    | split
    | simp (maxDischargeDepth := 60) [*]; done
    | (with_reducible refine planOk_foldl ?_ _ ?_; intro _ _ _)
    | simp (maxDischargeDepth := 60) [*]

@[simp] theorem planOk_reselect {s : State} (x : Sub) (c : Fin 3) (k : Key) (f : Frame) (area : BitVec 12) (hs : s.planOk = true) :
    (State.reselect s x c k f area).planOk = true := by
  have hp : listOk s.rpl.plan = true := hs
  unfold State.reselect
  repeat' first
    | with_reducible assumption
    | split
    | simp (maxDischargeDepth := 60) [*]; done
    | (with_reducible refine planOk_foldl ?_ _ ?_; intro _ _ _)
    | simp (maxDischargeDepth := 60) [*]

/-! ### Handover -/

@[simp] theorem planOk_startReport {s : State} (x : Sub) (t : Trigger) (hs : s.planOk = true) :
    (State.startReport s x t).planOk = true := by
  have hp : listOk s.rpl.plan = true := hs
  unfold State.startReport
  repeat' first
    | with_reducible assumption
    | split
    | simp (maxDischargeDepth := 60) [*]; done
    | (with_reducible refine planOk_foldl ?_ _ ?_; intro _ _ _)
    | simp (maxDischargeDepth := 60) [*]

@[simp] theorem planOk_takeEvaluation {s : State} (x : Sub) (t : Option Trigger) (hs : s.planOk = true) :
    (State.takeEvaluation s x t).planOk = true := by
  have hp : listOk s.rpl.plan = true := hs
  unfold State.takeEvaluation
  repeat' first
    | with_reducible assumption
    | split
    | simp (maxDischargeDepth := 60) [*]; done
    | (with_reducible refine planOk_foldl ?_ _ ?_; intro _ _ _)
    | simp (maxDischargeDepth := 60) [*]

@[simp] theorem planOk_reportHeard {s : State} (x : Sub) (g : Frame) (hs : s.planOk = true) :
    (State.reportHeard s x g).planOk = true := by
  have hp : listOk s.rpl.plan = true := hs
  unfold State.reportHeard
  repeat' first
    | with_reducible assumption
    | split
    | simp (maxDischargeDepth := 60) [*]; done
    | (with_reducible refine planOk_foldl ?_ _ ?_; intro _ _ _)
    | simp (maxDischargeDepth := 60) [*]

@[simp] theorem planOk_giveUp {s : State} (x : Sub) (hs : s.planOk = true) :
    (State.giveUp s x).planOk = true := by
  have hp : listOk s.rpl.plan = true := hs
  unfold State.giveUp
  repeat' first
    | with_reducible assumption
    | split
    | simp (maxDischargeDepth := 60) [*]; done
    | (with_reducible refine planOk_foldl ?_ _ ?_; intro _ _ _)
    | simp (maxDischargeDepth := 60) [*]

@[simp] theorem planOk_reportTimer {s : State} (x : Sub) (f : Frame) (hs : s.planOk = true) :
    (State.reportTimer s x f).planOk = true := by
  have hp : listOk s.rpl.plan = true := hs
  unfold State.reportTimer
  repeat' first
    | with_reducible assumption
    | split
    | simp (maxDischargeDepth := 60) [*]; done
    | (with_reducible refine planOk_foldl ?_ _ ?_; intro _ _ _)
    | simp (maxDischargeDepth := 60) [*]

@[simp] theorem planOk_offerReportTimer {s : State} (x : Sub) (f : Frame) (hs : s.planOk = true) :
    (State.offerReportTimer s x f).planOk = true := by
  have hp : listOk s.rpl.plan = true := hs
  unfold State.offerReportTimer
  repeat' first
    | with_reducible assumption
    | split
    | simp (maxDischargeDepth := 60) [*]; done
    | (with_reducible refine planOk_foldl ?_ _ ?_; intro _ _ _)
    | simp (maxDischargeDepth := 60) [*]

@[simp] theorem planOk_takeOrder {s : State} (x : Sub) (c : Fin 3) (f : Frame) (o : Order) (hs : s.planOk = true) :
    (State.takeOrder s x c f o).planOk = true := by
  have hp : listOk s.rpl.plan = true := hs
  unfold State.takeOrder
  repeat' first
    | with_reducible assumption
    | split
    | simp (maxDischargeDepth := 60) [*]; done
    | (with_reducible refine planOk_foldl ?_ _ ?_; intro _ _ _)
    | simp (maxDischargeDepth := 60) [*]

@[simp] theorem planOk_upSuspend {s : State} (k : Fin 4) (f : Frame) (hs : s.planOk = true) :
    (State.upSuspend s k f).planOk = true := by
  have hp : listOk s.rpl.plan = true := hs
  unfold State.upSuspend
  repeat' first
    | with_reducible assumption
    | split
    | simp (maxDischargeDepth := 60) [*]; done
    | (with_reducible refine planOk_foldl ?_ _ ?_; intro _ _ _)
    | simp (maxDischargeDepth := 60) [*]

@[simp] theorem planOk_suspendVoice {s : State} (k : Fin 4) (f : Frame) (hs : s.planOk = true) :
    (State.suspendVoice s k f).planOk = true := by
  have hp : listOk s.rpl.plan = true := hs
  unfold State.suspendVoice
  repeat' first
    | with_reducible assumption
    | split
    | simp (maxDischargeDepth := 60) [*]; done
    | (with_reducible refine planOk_foldl ?_ _ ?_; intro _ _ _)
    | simp (maxDischargeDepth := 60) [*]

@[simp] theorem planOk_secondFailure {s : State} (x : Sub) (hs : s.planOk = true) :
    (State.secondFailure s x).planOk = true := by
  have hp : listOk s.rpl.plan = true := hs
  unfold State.secondFailure
  repeat' first
    | with_reducible assumption
    | split
    | simp (maxDischargeDepth := 60) [*]; done
    | (with_reducible refine planOk_foldl ?_ _ ?_; intro _ _ _)
    | simp (maxDischargeDepth := 60) [*]

@[simp] theorem planOk_linkFailure {s : State} (x : Sub) (hs : s.planOk = true) :
    (State.linkFailure s x).planOk = true := by
  have hp : listOk s.rpl.plan = true := hs
  unfold State.linkFailure
  repeat' first
    | with_reducible assumption
    | split
    | simp (maxDischargeDepth := 60) [*]; done
    | (with_reducible refine planOk_foldl ?_ _ ?_; intro _ _ _)
    | simp (maxDischargeDepth := 60) [*]

@[simp] theorem planOk_reversionListen {s : State} (x : Sub) (c : Fin 3) (f : Frame) (hs : s.planOk = true) :
    (State.reversionListen s x c f).planOk = true := by
  have hp : listOk s.rpl.plan = true := hs
  unfold State.reversionListen
  repeat' first
    | with_reducible assumption
    | split
    | simp (maxDischargeDepth := 60) [*]; done
    | (with_reducible refine planOk_foldl ?_ _ ?_; intro _ _ _)
    | simp (maxDischargeDepth := 60) [*]

@[simp] theorem planOk_failHandover {s : State} (x : Sub) (hs : s.planOk = true) :
    (State.failHandover s x).planOk = true := by
  have hp : listOk s.rpl.plan = true := hs
  unfold State.failHandover
  repeat' first
    | with_reducible assumption
    | split
    | simp (maxDischargeDepth := 60) [*]; done
    | (with_reducible refine planOk_foldl ?_ _ ?_; intro _ _ _)
    | simp (maxDischargeDepth := 60) [*]

@[simp] theorem planOk_leaveOld {s : State} (x : Sub) (k : Fin 4) (c : Fin 3) (f : Frame) (o : Order) (hs : s.planOk = true) :
    (State.leaveOld s x k c f o).planOk = true := by
  have hp : listOk s.rpl.plan = true := hs
  unfold State.leaveOld
  repeat' first
    | with_reducible assumption
    | split
    | simp (maxDischargeDepth := 60) [*]; done
    | (with_reducible refine planOk_foldl ?_ _ ?_; intro _ _ _)
    | simp (maxDischargeDepth := 60) [*]

@[simp] theorem planOk_revertHandover {s : State} (x : Sub) (hs : s.planOk = true) :
    (State.revertHandover s x).planOk = true := by
  have hp : listOk s.rpl.plan = true := hs
  unfold State.revertHandover
  repeat' first
    | with_reducible assumption
    | split
    | simp (maxDischargeDepth := 60) [*]; done
    | (with_reducible refine planOk_foldl ?_ _ ?_; intro _ _ _)
    | simp (maxDischargeDepth := 60) [*]

@[simp] theorem planOk_serveKey {s : State} (x : Sub) (k : Key) (hs : s.planOk = true) :
    (State.serveKey s x k).planOk = true := by
  have hp : listOk s.rpl.plan = true := hs
  unfold State.serveKey
  repeat' first
    | with_reducible assumption
    | split
    | simp (maxDischargeDepth := 60) [*]; done
    | (with_reducible refine planOk_foldl ?_ _ ?_; intro _ _ _)
    | simp (maxDischargeDepth := 60) [*]

@[simp] theorem planOk_commitHandover {s : State} (x : Sub) (c : Fin 3) (k : Fin 4) (o : Order) (hs : s.planOk = true) :
    (State.commitHandover s x c k o).planOk = true := by
  have hp : listOk s.rpl.plan = true := hs
  unfold State.commitHandover
  repeat' first
    | with_reducible assumption
    | split
    | simp (maxDischargeDepth := 60) [*]; done
    | (with_reducible refine planOk_foldl ?_ _ ?_; intro _ _ _)
    | simp (maxDischargeDepth := 60) [*]

@[simp] theorem planOk_settleCamped {s : State} (x : Sub) (changed : Bool) (hs : s.planOk = true) :
    (State.settleCamped s x changed).planOk = true := by
  have hp : listOk s.rpl.plan = true := hs
  unfold State.settleCamped
  repeat' first
    | with_reducible assumption
    | split
    | simp (maxDischargeDepth := 60) [*]; done
    | (with_reducible refine planOk_foldl ?_ _ ?_; intro _ _ _)
    | simp (maxDischargeDepth := 60) [*]

@[simp] theorem planOk_stopHandover {s : State} (x : Sub) (k : Fin 4) (cause : CallCause) (byte : BitVec 8) (hs : s.planOk = true) :
    (State.stopHandover s x k cause byte).planOk = true := by
  have hp : listOk s.rpl.plan = true := hs
  unfold State.stopHandover
  repeat' first
    | with_reducible assumption
    | split
    | simp (maxDischargeDepth := 60) [*]; done
    | (with_reducible refine planOk_foldl ?_ _ ?_; intro _ _ _)
    | simp (maxDischargeDepth := 60) [*]

@[simp] theorem planOk_targetFound {s : State} (x : Sub) (k : Key) (f : Frame) (barred : Bool) (area : BitVec 12) (hs : s.planOk = true) :
    (State.targetFound s x k f barred area).planOk = true := by
  have hp : listOk s.rpl.plan = true := hs
  unfold State.targetFound
  repeat' first
    | with_reducible assumption
    | split
    | simp (maxDischargeDepth := 60) [*]; done
    | (with_reducible refine planOk_foldl ?_ _ ?_; intro _ _ _)
    | simp (maxDischargeDepth := 60) [*]

/-! ### Offers -/

@[simp] theorem planOk_offerWindow {s : State} (x : Sub) (c : Fin 3) (f : Frame) (hs : s.planOk = true) :
    (State.offerWindow s x c f).planOk = true := by
  have hp : listOk s.rpl.plan = true := hs
  unfold State.offerWindow
  repeat' first
    | with_reducible assumption
    | split
    | simp (maxDischargeDepth := 60) [*]; done
    | (with_reducible refine planOk_foldl ?_ _ ?_; intro _ _ _)
    | simp (maxDischargeDepth := 60) [*]

@[simp] theorem planOk_offerBeacon {s : State} (x : Sub) (c : Fin 3) (f : Frame) (hs : s.planOk = true) :
    (State.offerBeacon s x c f).planOk = true := by
  have hp : listOk s.rpl.plan = true := hs
  unfold State.offerBeacon
  repeat' first
    | with_reducible assumption
    | split
    | simp (maxDischargeDepth := 60) [*]; done
    | (with_reducible refine planOk_foldl ?_ _ ?_; intro _ _ _)
    | simp (maxDischargeDepth := 60) [*]

@[simp] theorem planOk_offerSuspended {s : State} (x : Sub) (c : Fin 3) (f : Frame) (hs : s.planOk = true) :
    (State.offerSuspended s x c f).planOk = true := by
  have hp : listOk s.rpl.plan = true := hs
  unfold State.offerSuspended
  repeat' first
    | with_reducible assumption
    | split
    | simp (maxDischargeDepth := 60) [*]; done
    | (with_reducible refine planOk_foldl ?_ _ ?_; intro _ _ _)
    | simp (maxDischargeDepth := 60) [*]

theorem planOk_of_ask {s t : State} {n : Occ} {a : Answer} (hs : s.planOk = true) (h : s.ask n = (t, a)) :
    t.planOk = true := by
  have e := planOk_ask n hs
  rw [h] at e
  exact e

@[simp] theorem planOk_offerDown {s : State} (x : Sub) (c : Fin 3) (f : Frame) (k : Fin 4) (hs : s.planOk = true) :
    (s.offerDown x c f k).planOk = true := by
  unfold State.offerDown
  dsimp only
  split <;> next h => simp [planOk_of_ask hs h]

@[simp] theorem planOk_askUp {s : State} (x : Sub) (c : Fin 3) (f : Frame) (k : Fin 4) (kind : Kind) (b : Uplink)
    (hs : s.planOk = true) : (s.askUp x c f k kind b).planOk = true := by
  unfold State.askUp
  dsimp only
  split <;> next h => simp [planOk_of_ask (by simpa using hs) h]

@[simp] theorem planOk_offerUp {s : State} (x : Sub) (c : Fin 3) (f : Frame) (k : Fin 4) (hs : s.planOk = true) :
    (State.offerUp s x c f k).planOk = true := by
  have hp : listOk s.rpl.plan = true := hs
  unfold State.offerUp
  repeat' first
    | with_reducible assumption
    | split
    | simp (maxDischargeDepth := 60) [*]; done
    | (with_reducible refine planOk_foldl ?_ _ ?_; intro _ _ _)
    | simp (maxDischargeDepth := 60) [*]

@[simp] theorem planOk_offerCallSlot {s : State} (x : Sub) (c : Fin 3) (f : Frame) (i : Nat) (hs : s.planOk = true) :
    (State.offerCallSlot s x c f i).planOk = true := by
  have hp : listOk s.rpl.plan = true := hs
  unfold State.offerCallSlot
  repeat' first
    | with_reducible assumption
    | split
    | simp (maxDischargeDepth := 60) [*]; done
    | (with_reducible refine planOk_foldl ?_ _ ?_; intro _ _ _)
    | simp (maxDischargeDepth := 60) [*]

@[simp] theorem planOk_offerListen {s : State} (x : Sub) (c : Fin 3) (f : Frame) (i : Nat) (hs : s.planOk = true) :
    (State.offerListen s x c f i).planOk = true := by
  have hp : listOk s.rpl.plan = true := hs
  unfold State.offerListen
  repeat' first
    | with_reducible assumption
    | split
    | simp (maxDischargeDepth := 60) [*]; done
    | (with_reducible refine planOk_foldl ?_ _ ?_; intro _ _ _)
    | simp (maxDischargeDepth := 60) [*]

@[simp] theorem planOk_noteMeasure {s : State} (x : Sub) (c : Fin 3) (f : Frame) (r : Fin 18) (hs : s.planOk = true) :
    (State.noteMeasure s x c f r).planOk = true := by
  have hp : listOk s.rpl.plan = true := hs
  unfold State.noteMeasure
  repeat' first
    | with_reducible assumption
    | split
    | simp (maxDischargeDepth := 60) [*]; done
    | (with_reducible refine planOk_foldl ?_ _ ?_; intro _ _ _)
    | simp (maxDischargeDepth := 60) [*]

@[simp] theorem planOk_measureSlot {s : State} (x : Sub) (c : Fin 3) (f : Frame) (i : Nat) (first : Bool)
    (granted : List (Fin 18)) (hs : s.planOk = true) : (s.measureSlot x c f i first granted).1.planOk = true := by
  unfold State.measureSlot
  split
  · split
    · next h => simp [planOk_of_ask hs h]
    · next h => exact planOk_of_ask hs h
  · split
    · exact hs
    · split
      · next h => simp [planOk_of_ask hs h]
      · next h => exact planOk_of_ask hs h

@[simp] theorem planOk_batch {s : State} (x : Sub) (c : Fin 3) (f : Frame) (hs : s.planOk = true) :
    (s.batch x c f).planOk = true := by
  unfold State.batch
  dsimp only
  refine planOk_foldl_pair ?_ _ (by simp [hs])
  intro p j h
  simp [h]

@[simp] theorem planOk_offerTarget {s : State} (x : Sub) (c : Fin 3) (f : Frame) (hs : s.planOk = true) :
    (State.offerTarget s x c f).planOk = true := by
  have hp : listOk s.rpl.plan = true := hs
  unfold State.offerTarget
  repeat' first
    | with_reducible assumption
    | split
    | simp (maxDischargeDepth := 60) [*]; done
    | (with_reducible refine planOk_foldl ?_ _ ?_; intro _ _ _)
    | simp (maxDischargeDepth := 60) [*]

@[simp] theorem planOk_offerCallOpen {s : State} (x : Sub) (c : Fin 3) (f : Frame) (hs : s.planOk = true) :
    (State.offerCallOpen s x c f).planOk = true := by
  have hp : listOk s.rpl.plan = true := hs
  unfold State.offerCallOpen
  repeat' first
    | with_reducible assumption
    | split
    | simp (maxDischargeDepth := 60) [*]; done
    | (with_reducible refine planOk_foldl ?_ _ ?_; intro _ _ _)
    | simp (maxDischargeDepth := 60) [*]

@[simp] theorem planOk_offerDecline {s : State} (x : Sub) (c : Fin 3) (f : Frame) (hs : s.planOk = true) :
    (State.offerDecline s x c f).planOk = true := by
  have hp : listOk s.rpl.plan = true := hs
  unfold State.offerDecline
  repeat' first
    | with_reducible assumption
    | split
    | simp (maxDischargeDepth := 60) [*]; done
    | (with_reducible refine planOk_foldl ?_ _ ?_; intro _ _ _)
    | simp (maxDischargeDepth := 60) [*]

@[simp] theorem planOk_offerReceipts {s : State} (x : Sub) (c : Fin 3) (f : Frame) (hs : s.planOk = true) :
    (State.offerReceipts s x c f).planOk = true := by
  have hp : listOk s.rpl.plan = true := hs
  unfold State.offerReceipts
  repeat' first
    | with_reducible assumption
    | split
    | simp (maxDischargeDepth := 60) [*]; done
    | (with_reducible refine planOk_foldl ?_ _ ?_; intro _ _ _)
    | simp (maxDischargeDepth := 60) [*]

@[simp] theorem planOk_offerSegment {s : State} (x : Sub) (c : Fin 3) (f : Frame) (hs : s.planOk = true) :
    (s.offerSegment x c f).planOk = true := by
  unfold State.offerSegment
  split
  · exact hs
  · split
    · dsimp only
      split
      · next h => simp [planOk_of_ask (by simpa using hs) h]
      · next h => exact planOk_attemptFailed _ _ (planOk_of_ask (by simpa using hs) h)
    · exact hs

@[simp] theorem planOk_offerAckWindow {s : State} (x : Sub) (f : Frame) (hs : s.planOk = true) :
    (State.offerAckWindow s x f).planOk = true := by
  have hp : listOk s.rpl.plan = true := hs
  unfold State.offerAckWindow
  repeat' first
    | with_reducible assumption
    | split
    | simp (maxDischargeDepth := 60) [*]; done
    | (with_reducible refine planOk_foldl ?_ _ ?_; intro _ _ _)
    | simp (maxDischargeDepth := 60) [*]

@[simp] theorem planOk_offerServing {s : State} (x : Sub) (c : Fin 3) (f : Frame) (hs : s.planOk = true) :
    (s.offerServing x c f).planOk = true := by
  unfold State.offerServing
  dsimp only
  split
  · simp (maxDischargeDepth := 60) [hs]
  · refine planOk_offerSegment _ _ _ (planOk_offerReceipts _ _ _ (planOk_offerDecline _ _ _ (planOk_offerCallOpen _ _ _ ?_)))
    refine planOk_foldl_pair ?_ _ (by simp (maxDischargeDepth := 60) [hs])
    intro p i h
    repeat' split
    all_goals simp (maxDischargeDepth := 60) [h]

@[simp] theorem planOk_offerSub {s : State} (x : Sub) (c : Fin 3) (f : Frame) (hs : s.planOk = true) :
    (State.offerSub s x c f).planOk = true := by
  have hp : listOk s.rpl.plan = true := hs
  unfold State.offerSub
  repeat' first
    | with_reducible assumption
    | split
    | simp (maxDischargeDepth := 60) [*]; done
    | (with_reducible refine planOk_foldl ?_ _ ?_; intro _ _ _)
    | simp (maxDischargeDepth := 60) [*]

@[simp] theorem planOk_requestSeek {s : State} (o : Occ) (use : Use) (us : List User) (hs : s.planOk = true) :
    (State.requestSeek s o use us).planOk = true := by
  have hp : listOk s.rpl.plan = true := hs
  unfold State.requestSeek
  repeat' first
    | with_reducible assumption
    | split
    | simp (maxDischargeDepth := 60) [*]; done
    | (with_reducible refine planOk_foldl ?_ _ ?_; intro _ _ _)
    | simp (maxDischargeDepth := 60) [*]

@[simp] theorem planOk_offerSeek {s : State} (c : Fin 3) (f : Frame) (hs : s.planOk = true) :
    (State.offerSeek s c f).planOk = true := by
  have hp : listOk s.rpl.plan = true := hs
  unfold State.offerSeek
  repeat' first
    | with_reducible assumption
    | split
    | simp (maxDischargeDepth := 60) [*]; done
    | (with_reducible refine planOk_foldl ?_ _ ?_; intro _ _ _)
    | simp (maxDischargeDepth := 60) [*]

@[simp] theorem planOk_handStaged {s : State} (c : Fin 3) (f : Frame) (hs : s.planOk = true) :
    (State.handStaged s c f).planOk = true := by
  have hp : listOk s.rpl.plan = true := hs
  unfold State.handStaged
  repeat' first
    | with_reducible assumption
    | split
    | simp (maxDischargeDepth := 60) [*]; done
    | (with_reducible refine planOk_foldl ?_ _ ?_; intro _ _ _)
    | simp (maxDischargeDepth := 60) [*]

@[simp] theorem planOk_retryAt {s : State} (c : Fin 3) (hs : s.planOk = true) :
    (State.retryAt s c).planOk = true := by
  have hp : listOk s.rpl.plan = true := hs
  unfold State.retryAt
  repeat' first
    | with_reducible assumption
    | split
    | simp (maxDischargeDepth := 60) [*]; done
    | (with_reducible refine planOk_foldl ?_ _ ?_; intro _ _ _)
    | simp (maxDischargeDepth := 60) [*]

@[simp] theorem planOk_offer {s : State} (c : Fin 3) (f : Frame) (hs : s.planOk = true) :
    (State.offer s c f).planOk = true := by
  have hp : listOk s.rpl.plan = true := hs
  unfold State.offer
  repeat' first
    | with_reducible assumption
    | split
    | simp (maxDischargeDepth := 60) [*]; done
    | (with_reducible refine planOk_foldl ?_ _ ?_; intro _ _ _)
    | simp (maxDischargeDepth := 60) [*]

@[simp] theorem planOk_seekEvent {s : State} (c : Fin 3) (hs : s.planOk = true) :
    (State.seekEvent s c).planOk = true := by
  have hp : listOk s.rpl.plan = true := hs
  unfold State.seekEvent
  repeat' first
    | with_reducible assumption
    | split
    | simp (maxDischargeDepth := 60) [*]; done
    | (with_reducible refine planOk_foldl ?_ _ ?_; intro _ _ _)
    | simp (maxDischargeDepth := 60) [*]

/-! ### Sleep -/

@[simp] theorem planOk_enterSleep {s : State} (hs : s.planOk = true) :
    (State.enterSleep s).planOk = true := by
  have hp : listOk s.rpl.plan = true := hs
  unfold State.enterSleep
  repeat' first
    | with_reducible assumption
    | split
    | simp (maxDischargeDepth := 60) [*]; done
    | (with_reducible refine planOk_foldl ?_ _ ?_; intro _ _ _)
    | simp (maxDischargeDepth := 60) [*]

@[simp] theorem planOk_setPower {s : State} (st : Power) (hs : s.planOk = true) :
    (State.setPower s st).planOk = true := by
  have hp : listOk s.rpl.plan = true := hs
  unfold State.setPower
  repeat' first
    | with_reducible assumption
    | split
    | simp (maxDischargeDepth := 60) [*]; done
    | (with_reducible refine planOk_foldl ?_ _ ?_; intro _ _ _)
    | simp (maxDischargeDepth := 60) [*]

@[simp] theorem planOk_sleepDecision {s : State} (hs : s.planOk = true) :
    (State.sleepDecision s).planOk = true := by
  have hp : listOk s.rpl.plan = true := hs
  unfold State.sleepDecision
  repeat' first
    | with_reducible assumption
    | split
    | simp (maxDischargeDepth := 60) [*]; done
    | (with_reducible refine planOk_foldl ?_ _ ?_; intro _ _ _)
    | simp (maxDischargeDepth := 60) [*]

@[simp] theorem planOk_finish (s0 s : State) (hs : s.planOk = true) :
    (State.finish s0 s).planOk = true := by
  have hp : listOk s.rpl.plan = true := hs
  unfold State.finish
  repeat' first
    | with_reducible assumption
    | split
    | simp (maxDischargeDepth := 60) [*]; done
    | (with_reducible refine planOk_foldl ?_ _ ?_; intro _ _ _)
    | simp (maxDischargeDepth := 60) [*]

@[simp] theorem planOk_finishEntry (s0 s : State) (hs : s.planOk = true) :
    (State.finishEntry s0 s).planOk = true := by
  unfold State.finishEntry
  dsimp only
  split
  · exact planOk_sleepDecision (planOk_finish s0 s hs)
  · exact planOk_finish s0 s hs

@[simp] theorem planOk_enterWaking {s : State} (n : Nat) (hs : s.planOk = true) :
    (State.enterWaking s n).planOk = true := by
  have hp : listOk s.rpl.plan = true := hs
  unfold State.enterWaking
  repeat' first
    | with_reducible assumption
    | split
    | simp (maxDischargeDepth := 60) [*]; done
    | (with_reducible refine planOk_foldl ?_ _ ?_; intro _ _ _)
    | simp (maxDischargeDepth := 60) [*]

@[simp] theorem planOk_driftSample {s : State} (e : Int) (hs : s.planOk = true) :
    (State.driftSample s e).planOk = true := by
  have hp : listOk s.rpl.plan = true := hs
  unfold State.driftSample
  repeat' first
    | with_reducible assumption
    | split
    | simp (maxDischargeDepth := 60) [*]; done
    | (with_reducible refine planOk_foldl ?_ _ ?_; intro _ _ _)
    | simp (maxDischargeDepth := 60) [*]

/-! ### Reports -/

@[simp] theorem planOk_conclude {s : State} (h : Handle) (e : Ending) (hs : s.planOk = true) :
    (State.conclude s h e).planOk = true := by
  have hp : listOk s.rpl.plan = true := hs
  unfold State.conclude
  repeat' first
    | with_reducible assumption
    | split
    | simp (maxDischargeDepth := 60) [*]; done
    | (with_reducible refine planOk_foldl ?_ _ ?_; intro _ _ _)
    | simp (maxDischargeDepth := 60) [*]

@[simp] theorem planOk_concludeDone {s : State} (h : Handle) (hs : s.planOk = true) :
    (State.concludeDone s h).planOk = true := by
  have hp : listOk s.rpl.plan = true := hs
  unfold State.concludeDone
  repeat' first
    | with_reducible assumption
    | split
    | simp (maxDischargeDepth := 60) [*]; done
    | (with_reducible refine planOk_foldl ?_ _ ?_; intro _ _ _)
    | simp (maxDischargeDepth := 60) [*]

@[simp] theorem planOk_missBeacon {s : State} (o : Occ) (hs : s.planOk = true) :
    (State.missBeacon s o).planOk = true := by
  have hp : listOk s.rpl.plan = true := hs
  unfold State.missBeacon
  repeat' first
    | with_reducible assumption
    | split
    | simp (maxDischargeDepth := 60) [*]; done
    | (with_reducible refine planOk_foldl ?_ _ ?_; intro _ _ _)
    | simp (maxDischargeDepth := 60) [*]

@[simp] theorem planOk_missWindows {s : State} (o : Occ) (hs : s.planOk = true) :
    (State.missWindows s o).planOk = true := by
  have hp : listOk s.rpl.plan = true := hs
  unfold State.missWindows
  repeat' first
    | with_reducible assumption
    | split
    | simp (maxDischargeDepth := 60) [*]; done
    | (with_reducible refine planOk_foldl ?_ _ ?_; intro _ _ _)
    | simp (maxDischargeDepth := 60) [*]

@[simp] theorem planOk_incomingCall {s : State} (x : Sub) (capture : Nat) (hs : s.planOk = true) :
    (State.incomingCall s x capture).planOk = true := by
  have hp : listOk s.rpl.plan = true := hs
  unfold State.incomingCall
  repeat' first
    | with_reducible assumption
    | split
    | simp (maxDischargeDepth := 60) [*]; done
    | (with_reducible refine planOk_foldl ?_ _ ?_; intro _ _ _)
    | simp (maxDischargeDepth := 60) [*]

@[simp] theorem planOk_extendListen {s : State} (x : Sub) (f : Frame) (hs : s.planOk = true) :
    (State.extendListen s x f).planOk = true := by
  have hp : listOk s.rpl.plan = true := hs
  unfold State.extendListen
  repeat' first
    | with_reducible assumption
    | split
    | simp (maxDischargeDepth := 60) [*]; done
    | (with_reducible refine planOk_foldl ?_ _ ?_; intro _ _ _)
    | simp (maxDischargeDepth := 60) [*]

@[simp] theorem planOk_textPaging {s : State} (x : Sub) (f : Frame) (hs : s.planOk = true) :
    (State.textPaging s x f).planOk = true := by
  have hp : listOk s.rpl.plan = true := hs
  unfold State.textPaging
  repeat' first
    | with_reducible assumption
    | split
    | simp (maxDischargeDepth := 60) [*]; done
    | (with_reducible refine planOk_foldl ?_ _ ?_; intro _ _ _)
    | simp (maxDischargeDepth := 60) [*]

@[simp] theorem planOk_takePaging {s : State} (x : Sub) (b : Beacon) (r : PagingReason) (hs : s.planOk = true) :
    (State.takePaging s x b r).planOk = true := by
  have hp : listOk s.rpl.plan = true := hs
  unfold State.takePaging
  repeat' first
    | with_reducible assumption
    | split
    | simp (maxDischargeDepth := 60) [*]; done
    | (with_reducible refine planOk_foldl ?_ _ ?_; intro _ _ _)
    | simp (maxDischargeDepth := 60) [*]

@[simp] theorem planOk_takePagings {s : State} (x : Sub) (b : Beacon) (hs : s.planOk = true) :
    (State.takePagings s x b).planOk = true := by
  have hp : listOk s.rpl.plan = true := hs
  unfold State.takePagings
  repeat' first
    | with_reducible assumption
    | split
    | simp (maxDischargeDepth := 60) [*]; done
    | (with_reducible refine planOk_foldl ?_ _ ?_; intro _ _ _)
    | simp (maxDischargeDepth := 60) [*]

@[simp] theorem planOk_takeAcks {s : State} (x : Sub) (b : Beacon) (hs : s.planOk = true) :
    (State.takeAcks s x b).planOk = true := by
  have hp : listOk s.rpl.plan = true := hs
  unfold State.takeAcks
  repeat' first
    | with_reducible assumption
    | split
    | simp (maxDischargeDepth := 60) [*]; done
    | (with_reducible refine planOk_foldl ?_ _ ?_; intro _ _ _)
    | simp (maxDischargeDepth := 60) [*]

@[simp] theorem planOk_startReselection {s : State} (x : Sub) (t : Trigger) (hs : s.planOk = true) :
    (State.startReselection s x t).planOk = true := by
  have hp : listOk s.rpl.plan = true := hs
  unfold State.startReselection
  repeat' first
    | with_reducible assumption
    | split
    | simp (maxDischargeDepth := 60) [*]; done
    | (with_reducible refine planOk_foldl ?_ _ ?_; intro _ _ _)
    | simp (maxDischargeDepth := 60) [*]

@[simp] theorem planOk_newWake {s : State} (x : Sub) (hs : s.planOk = true) :
    (State.newWake s x).planOk = true := by
  have hp : listOk s.rpl.plan = true := hs
  unfold State.newWake
  repeat' first
    | with_reducible assumption
    | split
    | simp (maxDischargeDepth := 60) [*]; done
    | (with_reducible refine planOk_foldl ?_ _ ?_; intro _ _ _)
    | simp (maxDischargeDepth := 60) [*]

theorem planOk_of_evaluate {s t : State} {x : Sub} {b : Bool} {r : Option Trigger} (hs : s.planOk = true)
    (h : s.evaluate x b = (t, r)) : t.planOk = true := by
  have e := planOk_evaluate x b hs
  rw [h] at e
  exact e

@[simp] theorem planOk_rankWindow {s : State} (x : Sub) (barred : Bool) (hs : s.planOk = true) :
    (s.rankWindow x barred).planOk = true := by
  unfold State.rankWindow
  dsimp only
  split
  · split
    · next h => exact planOk_startReselection _ _ (planOk_of_evaluate (planOk_newWake _ hs) h)
    · next h => exact planOk_of_evaluate (planOk_newWake _ hs) h
  · simp [hs]

@[simp] theorem planOk_mobilityBeacon {s : State} (o : Occ) (x : Sub) (b : Beacon) (hs : s.planOk = true) :
    (State.mobilityBeacon s o x b).planOk = true := by
  have hp : listOk s.rpl.plan = true := hs
  unfold State.mobilityBeacon
  repeat' first
    | with_reducible assumption
    | split
    | simp (maxDischargeDepth := 60) [*]; done
    | (with_reducible refine planOk_foldl ?_ _ ?_; intro _ _ _)
    | simp (maxDischargeDepth := 60) [*]

@[simp] theorem planOk_serveBeacon {s : State} (o : Occ) (b : Beacon) (x : Sub) (hs : s.planOk = true) :
    (State.serveBeacon s o b x).planOk = true := by
  have hp : listOk s.rpl.plan = true := hs
  unfold State.serveBeacon
  repeat' first
    | with_reducible assumption
    | split
    | simp (maxDischargeDepth := 60) [*]; done
    | (with_reducible refine planOk_foldl ?_ _ ?_; intro _ _ _)
    | simp (maxDischargeDepth := 60) [*]

@[simp] theorem planOk_searchFound {s : State} (x : Sub) (c : Fin 3) (k : Key) (b : Beacon) (hs : s.planOk = true) :
    (State.searchFound s x c k b).planOk = true := by
  have hp : listOk s.rpl.plan = true := hs
  unfold State.searchFound
  repeat' first
    | with_reducible assumption
    | split
    | simp (maxDischargeDepth := 60) [*]; done
    | (with_reducible refine planOk_foldl ?_ _ ?_; intro _ _ _)
    | simp (maxDischargeDepth := 60) [*]

@[simp] theorem planOk_verifyFound {s : State} (x : Sub) (c : Fin 3) (k : Key) (b : Beacon) (hs : s.planOk = true) :
    (State.verifyFound s x c k b).planOk = true := by
  have hp : listOk s.rpl.plan = true := hs
  unfold State.verifyFound
  repeat' first
    | with_reducible assumption
    | split
    | simp (maxDischargeDepth := 60) [*]; done
    | (with_reducible refine planOk_foldl ?_ _ ?_; intro _ _ _)
    | simp (maxDischargeDepth := 60) [*]

@[simp] theorem planOk_tellFound {s : State} (c : Fin 3) (k : Key) (b : Beacon) (u : User) (hs : s.planOk = true) :
    (State.tellFound s c k b u).planOk = true := by
  have hp : listOk s.rpl.plan = true := hs
  unfold State.tellFound
  repeat' first
    | with_reducible assumption
    | split
    | simp (maxDischargeDepth := 60) [*]; done
    | (with_reducible refine planOk_foldl ?_ _ ?_; intro _ _ _)
    | simp (maxDischargeDepth := 60) [*]

@[simp] theorem planOk_endSeeks {s : State} (c : Fin 3) (hs : s.planOk = true) :
    (State.endSeeks s c).planOk = true := by
  have hp : listOk s.rpl.plan = true := hs
  unfold State.endSeeks
  repeat' first
    | with_reducible assumption
    | split
    | simp (maxDischargeDepth := 60) [*]; done
    | (with_reducible refine planOk_foldl ?_ _ ?_; intro _ _ _)
    | simp (maxDischargeDepth := 60) [*]

@[simp] theorem planOk_rejectBeacon {s : State} (o : Occ) (hs : s.planOk = true) :
    (State.rejectBeacon s o).planOk = true := by
  unfold State.rejectBeacon
  refine planOk_missWindows _ (planOk_missBeacon _ (planOk_foldl ?_ _ hs))
  intro s x h
  split
  · simp [h]
  · exact h

@[simp] theorem planOk_wakeSample {s : State} (c : Ctx) (e : Int) (hs : s.planOk = true) :
    (State.wakeSample s c e).planOk = true := by
  have hp : listOk s.rpl.plan = true := hs
  unfold State.wakeSample
  repeat' first
    | with_reducible assumption
    | split
    | simp (maxDischargeDepth := 60) [*]; done
    | (with_reducible refine planOk_foldl ?_ _ ?_; intro _ _ _)
    | simp (maxDischargeDepth := 60) [*]

@[simp] theorem planOk_sampleBeacon {s : State} (o : Occ) (b : Beacon) (k : Key) (found : List User) (hs : s.planOk = true) :
    (State.sampleBeacon s o b k found).planOk = true := by
  have hp : listOk s.rpl.plan = true := hs
  unfold State.sampleBeacon
  repeat' first
    | with_reducible assumption
    | split
    | simp (maxDischargeDepth := 60) [*]; done
    | (with_reducible refine planOk_foldl ?_ _ ?_; intro _ _ _)
    | simp (maxDischargeDepth := 60) [*]

@[simp] theorem planOk_handContents {s : State} (o : Occ) (b : Beacon) (k : Key) (found : List User) (hs : s.planOk = true) :
    (State.handContents s o b k found).planOk = true := by
  have hp : listOk s.rpl.plan = true := hs
  unfold State.handContents
  repeat' first
    | with_reducible assumption
    | split
    | simp (maxDischargeDepth := 60) [*]; done
    | (with_reducible refine planOk_foldl ?_ _ ?_; intro _ _ _)
    | simp (maxDischargeDepth := 60) [*]

@[simp] theorem planOk_foundBeacon {s : State} (o : Occ) (b : Beacon) (hs : s.planOk = true) :
    (State.foundBeacon s o b).planOk = true := by
  have hp : listOk s.rpl.plan = true := hs
  unfold State.foundBeacon
  repeat' first
    | with_reducible assumption
    | split
    | simp (maxDischargeDepth := 60) [*]; done
    | (with_reducible refine planOk_foldl ?_ _ ?_; intro _ _ _)
    | simp (maxDischargeDepth := 60) [*]

@[simp] theorem planOk_trackBeacon {s : State} (o : Occ) (b : Beacon) (hs : s.planOk = true) :
    (State.trackBeacon s o b).planOk = true := by
  have hp : listOk s.rpl.plan = true := hs
  unfold State.trackBeacon
  repeat' first
    | with_reducible assumption
    | split
    | simp (maxDischargeDepth := 60) [*]; done
    | (with_reducible refine planOk_foldl ?_ _ ?_; intro _ _ _)
    | simp (maxDischargeDepth := 60) [*]

@[simp] theorem planOk_routeBeacon {s : State} (o : Occ) (b : Beacon) (hs : s.planOk = true) :
    (State.routeBeacon s o b).planOk = true := by
  have hp : listOk s.rpl.plan = true := hs
  unfold State.routeBeacon
  repeat' first
    | with_reducible assumption
    | split
    | simp (maxDischargeDepth := 60) [*]; done
    | (with_reducible refine planOk_foldl ?_ _ ?_; intro _ _ _)
    | simp (maxDischargeDepth := 60) [*]

@[simp] theorem planOk_beaconReport {s : State} (o : Occ) (b : Beacon) (hs : s.planOk = true) :
    (State.beaconReport s o b).planOk = true := by
  have hp : listOk s.rpl.plan = true := hs
  unfold State.beaconReport
  repeat' first
    | with_reducible assumption
    | split
    | simp (maxDischargeDepth := 60) [*]; done
    | (with_reducible refine planOk_foldl ?_ _ ?_; intro _ _ _)
    | simp (maxDischargeDepth := 60) [*]

@[simp] theorem planOk_takeAssign {s : State} (x : Sub) (c : Fin 3) (k : Fin 4) (down up : Nat) (f : Frame) (t : Nat) (hs : s.planOk = true) :
    (State.takeAssign s x c k down up f t).planOk = true := by
  have hp : listOk s.rpl.plan = true := hs
  unfold State.takeAssign
  repeat' first
    | with_reducible assumption
    | split
    | simp (maxDischargeDepth := 60) [*]; done
    | (with_reducible refine planOk_foldl ?_ _ ?_; intro _ _ _)
    | simp (maxDischargeDepth := 60) [*]

@[simp] theorem planOk_writeStolen {s : State} (k : Fin 4) (c : Fin 3) (f : Frame) (hs : s.planOk = true) :
    (State.writeStolen s k c f).planOk = true := by
  have hp : listOk s.rpl.plan = true := hs
  unfold State.writeStolen
  repeat' first
    | with_reducible assumption
    | split
    | simp (maxDischargeDepth := 60) [*]; done
    | (with_reducible refine planOk_foldl ?_ _ ?_; intro _ _ _)
    | simp (maxDischargeDepth := 60) [*]

@[simp] theorem planOk_endByBlock {s : State} (x : Sub) (c : Fin 3) (f : Frame) (k : Fin 4) (cause : CallCause) (byte : BitVec 8) (hs : s.planOk = true) :
    (State.endByBlock s x c f k cause byte).planOk = true := by
  have hp : listOk s.rpl.plan = true := hs
  unfold State.endByBlock
  repeat' first
    | with_reducible assumption
    | split
    | simp (maxDischargeDepth := 60) [*]; done
    | (with_reducible refine planOk_foldl ?_ _ ?_; intro _ _ _)
    | simp (maxDischargeDepth := 60) [*]

@[simp] theorem planOk_takeReject {s : State} (x : Sub) (c : Fin 3) (f : Frame) (k : Fin 4) (byte : BitVec 8) (hs : s.planOk = true) :
    (State.takeReject s x c f k byte).planOk = true := by
  have hp : listOk s.rpl.plan = true := hs
  unfold State.takeReject
  repeat' first
    | with_reducible assumption
    | split
    | simp (maxDischargeDepth := 60) [*]; done
    | (with_reducible refine planOk_foldl ?_ _ ?_; intro _ _ _)
    | simp (maxDischargeDepth := 60) [*]

@[simp] theorem planOk_takeRelease {s : State} (x : Sub) (c : Fin 3) (f : Frame) (k : Fin 4) (byte : BitVec 8) (hs : s.planOk = true) :
    (State.takeRelease s x c f k byte).planOk = true := by
  have hp : listOk s.rpl.plan = true := hs
  unfold State.takeRelease
  repeat' first
    | with_reducible assumption
    | split
    | simp (maxDischargeDepth := 60) [*]; done
    | (with_reducible refine planOk_foldl ?_ _ ?_; intro _ _ _)
    | simp (maxDischargeDepth := 60) [*]

@[simp] theorem planOk_sendReceipt {s : State} (x : Sub) (c : Fin 3) (g : Frame) (ref : Ref) (i : Fin 8) (w : Option (Fin 4)) (hs : s.planOk = true) :
    (State.sendReceipt s x c g ref i w).planOk = true := by
  have hp : listOk s.rpl.plan = true := hs
  unfold State.sendReceipt
  repeat' first
    | with_reducible assumption
    | split
    | simp (maxDischargeDepth := 60) [*]; done
    | (with_reducible refine planOk_foldl ?_ _ ?_; intro _ _ _)
    | simp (maxDischargeDepth := 60) [*]

@[simp] theorem planOk_completeReasm {s : State} (x : Sub) (c : Fin 3) (g : Frame) (r : Fin 4) (hs : s.planOk = true) :
    (State.completeReasm s x c g r).planOk = true := by
  have hp : listOk s.rpl.plan = true := hs
  unfold State.completeReasm
  repeat' first
    | with_reducible assumption
    | split
    | simp (maxDischargeDepth := 60) [*]; done
    | (with_reducible refine planOk_foldl ?_ _ ?_; intro _ _ _)
    | simp (maxDischargeDepth := 60) [*]

@[simp] theorem planOk_storeSegment {s : State} (x : Sub) (c : Fin 3) (g : Frame) (r : Fin 4) (ref : Ref) (i : Fin 8) (last : Bool) (payload : List Byte) (hs : s.planOk = true) :
    (State.storeSegment s x c g r ref i last payload).planOk = true := by
  have hp : listOk s.rpl.plan = true := hs
  unfold State.storeSegment
  repeat' first
    | with_reducible assumption
    | split
    | simp (maxDischargeDepth := 60) [*]; done
    | (with_reducible refine planOk_foldl ?_ _ ?_; intro _ _ _)
    | simp (maxDischargeDepth := 60) [*]

@[simp] theorem planOk_repeatSegment {s : State} (x : Sub) (c : Fin 3) (g : Frame) (r : Fin 4) (ref : Ref) (i : Fin 8) (hs : s.planOk = true) :
    (State.repeatSegment s x c g r ref i).planOk = true := by
  have hp : listOk s.rpl.plan = true := hs
  unfold State.repeatSegment
  repeat' first
    | with_reducible assumption
    | split
    | simp (maxDischargeDepth := 60) [*]; done
    | (with_reducible refine planOk_foldl ?_ _ ?_; intro _ _ _)
    | simp (maxDischargeDepth := 60) [*]

@[simp] theorem planOk_takeSegment {s : State} (x : Sub) (c : Fin 3) (g : Frame) (ref : Ref) (i : Fin 8) (last : Bool) (payload : List Byte) (hs : s.planOk = true) :
    (State.takeSegment s x c g ref i last payload).planOk = true := by
  have hp : listOk s.rpl.plan = true := hs
  unfold State.takeSegment
  repeat' first
    | with_reducible assumption
    | split
    | simp (maxDischargeDepth := 60) [*]; done
    | (with_reducible refine planOk_foldl ?_ _ ?_; intro _ _ _)
    | simp (maxDischargeDepth := 60) [*]

@[simp] theorem planOk_takeWelcome {s : State} (x : Sub) (c : Fin 3) (ref : Ref) (hs : s.planOk = true) :
    (State.takeWelcome s x c ref).planOk = true := by
  have hp : listOk s.rpl.plan = true := hs
  unfold State.takeWelcome
  repeat' first
    | with_reducible assumption
    | split
    | simp (maxDischargeDepth := 60) [*]; done
    | (with_reducible refine planOk_foldl ?_ _ ?_; intro _ _ _)
    | simp (maxDischargeDepth := 60) [*]

@[simp] theorem planOk_takeControl {s : State} (x : Sub) (c : Fin 3) (f : Frame) (t : Nat) (b : Control) (hs : s.planOk = true) :
    (State.takeControl s x c f t b).planOk = true := by
  have hp : listOk s.rpl.plan = true := hs
  unfold State.takeControl
  repeat' first
    | with_reducible assumption
    | split
    | simp (maxDischargeDepth := 60) [*]; done
    | (with_reducible refine planOk_foldl ?_ _ ?_; intro _ _ _)
    | simp (maxDischargeDepth := 60) [*]

@[simp] theorem planOk_routeControl {s : State} (o : Occ) (tag : Tag) (b : Control) (hs : s.planOk = true) :
    (State.routeControl s o tag b).planOk = true := by
  have hp : listOk s.rpl.plan = true := hs
  unfold State.routeControl
  repeat' first
    | with_reducible assumption
    | split
    | simp (maxDischargeDepth := 60) [*]; done
    | (with_reducible refine planOk_foldl ?_ _ ?_; intro _ _ _)
    | simp (maxDischargeDepth := 60) [*]

@[simp] theorem planOk_routeBlock {s : State} (o : Occ) (b : Option DownBlock) (hs : s.planOk = true) :
    (State.routeBlock s o b).planOk = true := by
  have hp : listOk s.rpl.plan = true := hs
  unfold State.routeBlock
  repeat' first
    | with_reducible assumption
    | split
    | simp (maxDischargeDepth := 60) [*]; done
    | (with_reducible refine planOk_foldl ?_ _ ?_; intro _ _ _)
    | simp (maxDischargeDepth := 60) [*]

@[simp] theorem planOk_routeLevel {s : State} (o : Occ) (level : Nat) (hs : s.planOk = true) :
    (State.routeLevel s o level).planOk = true := by
  have hp : listOk s.rpl.plan = true := hs
  unfold State.routeLevel
  repeat' first
    | with_reducible assumption
    | split
    | simp (maxDischargeDepth := 60) [*]; done
    | (with_reducible refine planOk_foldl ?_ _ ?_; intro _ _ _)
    | simp (maxDischargeDepth := 60) [*]

@[simp] theorem planOk_concludeSilent {s : State} (o : Occ) (hs : s.planOk = true) :
    (State.concludeSilent s o).planOk = true := by
  have hp : listOk s.rpl.plan = true := hs
  unfold State.concludeSilent
  repeat' first
    | with_reducible assumption
    | split
    | simp (maxDischargeDepth := 60) [*]; done
    | (with_reducible refine planOk_foldl ?_ _ ?_; intro _ _ _)
    | simp (maxDischargeDepth := 60) [*]

/-! ### Takes -/

@[simp] theorem planOk_enableSub {s : State} (x : Sub) (hs : s.planOk = true) :
    (State.enableSub s x).planOk = true := by
  have hp : listOk s.rpl.plan = true := hs
  unfold State.enableSub
  repeat' first
    | with_reducible assumption
    | split
    | simp (maxDischargeDepth := 60) [*]; done
    | (with_reducible refine planOk_foldl ?_ _ ?_; intro _ _ _)
    | simp (maxDischargeDepth := 60) [*]

@[simp] theorem planOk_disableSub {s : State} (x : Sub) (hs : s.planOk = true) :
    (State.disableSub s x).planOk = true := by
  have hp : listOk s.rpl.plan = true := hs
  unfold State.disableSub
  repeat' first
    | with_reducible assumption
    | split
    | simp (maxDischargeDepth := 60) [*]; done
    | (with_reducible refine planOk_foldl ?_ _ ?_; intro _ _ _)
    | simp (maxDischargeDepth := 60) [*]

@[simp] theorem planOk_ackArea {s : State} (x : Sub) (t : Stamp) (hs : s.planOk = true) :
    (State.ackArea s x t).planOk = true := by
  have hp : listOk s.rpl.plan = true := hs
  unfold State.ackArea
  repeat' first
    | with_reducible assumption
    | split
    | simp (maxDischargeDepth := 60) [*]; done
    | (with_reducible refine planOk_foldl ?_ _ ?_; intro _ _ _)
    | simp (maxDischargeDepth := 60) [*]

@[simp] theorem planOk_takeSettings {s : State} (x : Sub) (hs : s.planOk = true) :
    (State.takeSettings s x).planOk = true := by
  have hp : listOk s.rpl.plan = true := hs
  unfold State.takeSettings
  repeat' first
    | with_reducible assumption
    | split
    | simp (maxDischargeDepth := 60) [*]; done
    | (with_reducible refine planOk_foldl ?_ _ ?_; intro _ _ _)
    | simp (maxDischargeDepth := 60) [*]

@[simp] theorem planOk_takeSubs {s : State} (hs : s.planOk = true) :
    (State.takeSubs s).planOk = true := by
  have hp : listOk s.rpl.plan = true := hs
  unfold State.takeSubs
  repeat' first
    | with_reducible assumption
    | split
    | simp (maxDischargeDepth := 60) [*]; done
    | (with_reducible refine planOk_foldl ?_ _ ?_; intro _ _ _)
    | simp (maxDischargeDepth := 60) [*]

@[simp] theorem planOk_searchNotice {s : State} (x : Sub) (l : List (Fin 18)) (hs : s.planOk = true) :
    (State.searchNotice s x l).planOk = true := by
  have hp : listOk s.rpl.plan = true := hs
  unfold State.searchNotice
  repeat' first
    | with_reducible assumption
    | split
    | simp (maxDischargeDepth := 60) [*]; done
    | (with_reducible refine planOk_foldl ?_ _ ?_; intro _ _ _)
    | simp (maxDischargeDepth := 60) [*]

@[simp] theorem planOk_candidateNotice {s : State} (x : Sub) (had : Option (Key × Fin 18)) (l : List (Fin 18)) (hs : s.planOk = true) :
    (State.candidateNotice s x had l).planOk = true := by
  have hp : listOk s.rpl.plan = true := hs
  unfold State.candidateNotice
  repeat' first
    | with_reducible assumption
    | split
    | simp (maxDischargeDepth := 60) [*]; done
    | (with_reducible refine planOk_foldl ?_ _ ?_; intro _ _ _)
    | simp (maxDischargeDepth := 60) [*]

@[simp] theorem planOk_cellsNotice {s : State} (x : Sub) (had : Option (Key × Fin 18)) (l : List (Fin 18)) (hs : s.planOk = true) :
    (State.cellsNotice s x had l).planOk = true := by
  have hp : listOk s.rpl.plan = true := hs
  unfold State.cellsNotice
  repeat' first
    | with_reducible assumption
    | split
    | simp (maxDischargeDepth := 60) [*]; done
    | (with_reducible refine planOk_foldl ?_ _ ?_; intro _ _ _)
    | simp (maxDischargeDepth := 60) [*]

@[simp] theorem planOk_takeCells {s : State} (hs : s.planOk = true) :
    (State.takeCells s).planOk = true := by
  have hp : listOk s.rpl.plan = true := hs
  unfold State.takeCells
  repeat' first
    | with_reducible assumption
    | split
    | simp (maxDischargeDepth := 60) [*]; done
    | (with_reducible refine planOk_foldl ?_ _ ?_; intro _ _ _)
    | simp (maxDischargeDepth := 60) [*]

@[simp] theorem planOk_refuseCall {s : State} (k : Fin 4) (t : Stamp) (v : CallResult) (hs : s.planOk = true) :
    (State.refuseCall s k t v).planOk = true := by
  have hp : listOk s.rpl.plan = true := hs
  unfold State.refuseCall
  repeat' first
    | with_reducible assumption
    | split
    | simp (maxDischargeDepth := 60) [*]; done
    | (with_reducible refine planOk_foldl ?_ _ ?_; intro _ _ _)
    | simp (maxDischargeDepth := 60) [*]

@[simp] theorem planOk_acceptDial {s : State} (k : Fin 4) (t : Stamp) (x : Sub) (hs : s.planOk = true) :
    (State.acceptDial s k t x).planOk = true := by
  have hp : listOk s.rpl.plan = true := hs
  unfold State.acceptDial
  repeat' first
    | with_reducible assumption
    | split
    | simp (maxDischargeDepth := 60) [*]; done
    | (with_reducible refine planOk_foldl ?_ _ ?_; intro _ _ _)
    | simp (maxDischargeDepth := 60) [*]

@[simp] theorem planOk_takeDial {s : State} (k : Fin 4) (t : Stamp) (hs : s.planOk = true) :
    (State.takeDial s k t).planOk = true := by
  have no := fun v => planOk_refuseCall k t v hs
  have yes := fun x => planOk_acceptDial k t x hs
  unfold State.takeDial
  generalize s.callSub k = o
  generalize s.anyHolding = b
  cases o with
  | none => exact no _
  | some x =>
    generalize s.canConnect x = c
    simp only
    split
    · exact no _
    · split
      · exact no _
      · split
        · exact no _
        · exact yes x

@[simp] theorem planOk_takeAnswer {s : State} (k : Fin 4) (t : Stamp) (hs : s.planOk = true) :
    (State.takeAnswer s k t).planOk = true := by
  have hp : listOk s.rpl.plan = true := hs
  unfold State.takeAnswer
  repeat' first
    | with_reducible assumption
    | split
    | simp (maxDischargeDepth := 60) [*]; done
    | (with_reducible refine planOk_foldl ?_ _ ?_; intro _ _ _)
    | simp (maxDischargeDepth := 60) [*]

@[simp] theorem planOk_beginRelease {s : State} (k : Fin 4) (t : Stamp) (next : NextSend) (hs : s.planOk = true) :
    (State.beginRelease s k t next).planOk = true := by
  have hp : listOk s.rpl.plan = true := hs
  unfold State.beginRelease
  repeat' first
    | with_reducible assumption
    | split
    | simp (maxDischargeDepth := 60) [*]; done
    | (with_reducible refine planOk_foldl ?_ _ ?_; intro _ _ _)
    | simp (maxDischargeDepth := 60) [*]

@[simp] theorem planOk_takeHostRelease {s : State} (k : Fin 4) (t : Stamp) (hs : s.planOk = true) :
    (State.takeHostRelease s k t).planOk = true := by
  have hp : listOk s.rpl.plan = true := hs
  unfold State.takeHostRelease
  repeat' first
    | with_reducible assumption
    | split
    | simp (maxDischargeDepth := 60) [*]; done
    | (with_reducible refine planOk_foldl ?_ _ ?_; intro _ _ _)
    | simp (maxDischargeDepth := 60) [*]

@[simp] theorem planOk_takeFree {s : State} (k : Fin 4) (t : Stamp) (hs : s.planOk = true) :
    (State.takeFree s k t).planOk = true := by
  have hp : listOk s.rpl.plan = true := hs
  unfold State.takeFree
  repeat' first
    | with_reducible assumption
    | split
    | simp (maxDischargeDepth := 60) [*]; done
    | (with_reducible refine planOk_foldl ?_ _ ?_; intro _ _ _)
    | simp (maxDischargeDepth := 60) [*]

@[simp] theorem planOk_takeCall {s : State} (k : Fin 4) (hs : s.planOk = true) :
    (State.takeCall s k).planOk = true := by
  have hp : listOk s.rpl.plan = true := hs
  unfold State.takeCall
  repeat' first
    | with_reducible assumption
    | split
    | simp (maxDischargeDepth := 60) [*]; done
    | (with_reducible refine planOk_foldl ?_ _ ?_; intro _ _ _)
    | simp (maxDischargeDepth := 60) [*]

@[simp] theorem planOk_takeCalls {s : State} (hs : s.planOk = true) :
    (State.takeCalls s).planOk = true := by
  have hp : listOk s.rpl.plan = true := hs
  unfold State.takeCalls
  repeat' first
    | with_reducible assumption
    | split
    | simp (maxDischargeDepth := 60) [*]; done
    | (with_reducible refine planOk_foldl ?_ _ ?_; intro _ _ _)
    | simp (maxDischargeDepth := 60) [*]

@[simp] theorem planOk_refuseOut {s : State} (i : Fin 8) (t : Stamp) (v : OutResult) (hs : s.planOk = true) :
    (State.refuseOut s i t v).planOk = true := by
  have hp : listOk s.rpl.plan = true := hs
  unfold State.refuseOut
  repeat' first
    | with_reducible assumption
    | split
    | simp (maxDischargeDepth := 60) [*]; done
    | (with_reducible refine planOk_foldl ?_ _ ?_; intro _ _ _)
    | simp (maxDischargeDepth := 60) [*]

@[simp] theorem planOk_acceptSend {s : State} (i : Fin 8) (t : Stamp) (x : Sub) (hs : s.planOk = true) :
    (State.acceptSend s i t x).planOk = true := by
  have hp : listOk s.rpl.plan = true := hs
  unfold State.acceptSend
  repeat' first
    | with_reducible assumption
    | split
    | simp (maxDischargeDepth := 60) [*]; done
    | (with_reducible refine planOk_foldl ?_ _ ?_; intro _ _ _)
    | simp (maxDischargeDepth := 60) [*]

@[simp] theorem planOk_takeSend {s : State} (i : Fin 8) (t : Stamp) (hs : s.planOk = true) :
    (State.takeSend s i t).planOk = true := by
  have hp : listOk s.rpl.plan = true := hs
  unfold State.takeSend
  repeat' first
    | with_reducible assumption
    | split
    | simp (maxDischargeDepth := 60) [*]; done
    | (with_reducible refine planOk_foldl ?_ _ ?_; intro _ _ _)
    | simp (maxDischargeDepth := 60) [*]

@[simp] theorem planOk_withdrawSlot {s : State} (i : Fin 8) (t : Stamp) (back : Bool) (hs : s.planOk = true) :
    (State.withdrawSlot s i t back).planOk = true := by
  have hp : listOk s.rpl.plan = true := hs
  unfold State.withdrawSlot
  repeat' first
    | with_reducible assumption
    | split
    | simp (maxDischargeDepth := 60) [*]; done
    | (with_reducible refine planOk_foldl ?_ _ ?_; intro _ _ _)
    | simp (maxDischargeDepth := 60) [*]

@[simp] theorem planOk_takeWithdraw {s : State} (i : Fin 8) (t : Stamp) (hs : s.planOk = true) :
    (State.takeWithdraw s i t).planOk = true := by
  have hp : listOk s.rpl.plan = true := hs
  unfold State.takeWithdraw
  repeat' first
    | with_reducible assumption
    | split
    | simp (maxDischargeDepth := 60) [*]; done
    | (with_reducible refine planOk_foldl ?_ _ ?_; intro _ _ _)
    | simp (maxDischargeDepth := 60) [*]

@[simp] theorem planOk_takeOutFree {s : State} (i : Fin 8) (t : Stamp) (hs : s.planOk = true) :
    (State.takeOutFree s i t).planOk = true := by
  have hp : listOk s.rpl.plan = true := hs
  unfold State.takeOutFree
  repeat' first
    | with_reducible assumption
    | split
    | simp (maxDischargeDepth := 60) [*]; done
    | (with_reducible refine planOk_foldl ?_ _ ?_; intro _ _ _)
    | simp (maxDischargeDepth := 60) [*]

@[simp] theorem planOk_takeOut {s : State} (i : Fin 8) (hs : s.planOk = true) :
    (State.takeOut s i).planOk = true := by
  have hp : listOk s.rpl.plan = true := hs
  unfold State.takeOut
  repeat' first
    | with_reducible assumption
    | split
    | simp (maxDischargeDepth := 60) [*]; done
    | (with_reducible refine planOk_foldl ?_ _ ?_; intro _ _ _)
    | simp (maxDischargeDepth := 60) [*]

@[simp] theorem planOk_takeOutbox {s : State} (hs : s.planOk = true) :
    (State.takeOutbox s).planOk = true := by
  have hp : listOk s.rpl.plan = true := hs
  unfold State.takeOutbox
  repeat' first
    | with_reducible assumption
    | split
    | simp (maxDischargeDepth := 60) [*]; done
    | (with_reducible refine planOk_foldl ?_ _ ?_; intro _ _ _)
    | simp (maxDischargeDepth := 60) [*]

@[simp] theorem planOk_takeInbox {s : State} (hs : s.planOk = true) : s.takeInbox.planOk = true := by
  unfold State.takeInbox
  refine planOk_deliverWaiting (planOk_foldl ?_ _ ?_)
  · intro s i h
    simpa using h
  · simpa using hs

@[simp] theorem planOk_takeFault {s : State} (hs : s.planOk = true) :
    (State.takeFault s).planOk = true := by
  have hp : listOk s.rpl.plan = true := hs
  unfold State.takeFault
  repeat' first
    | with_reducible assumption
    | split
    | simp (maxDischargeDepth := 60) [*]; done
    | (with_reducible refine planOk_foldl ?_ _ ?_; intro _ _ _)
    | simp (maxDischargeDepth := 60) [*]

@[simp] theorem planOk_takeArea {s : State} (a : Area) (hs : s.planOk = true) :
    (State.takeArea s a).planOk = true := by
  have hp : listOk s.rpl.plan = true := hs
  unfold State.takeArea
  repeat' first
    | with_reducible assumption
    | split
    | simp (maxDischargeDepth := 60) [*]; done
    | (with_reducible refine planOk_foldl ?_ _ ?_; intro _ _ _)
    | simp (maxDischargeDepth := 60) [*]

@[simp] theorem planOk_takeHeld {s : State} (hs : s.planOk = true) :
    (State.takeHeld s).planOk = true := by
  have hp : listOk s.rpl.plan = true := hs
  unfold State.takeHeld
  repeat' first
    | with_reducible assumption
    | split
    | simp (maxDischargeDepth := 60) [*]; done
    | (with_reducible refine planOk_foldl ?_ _ ?_; intro _ _ _)
    | simp (maxDischargeDepth := 60) [*]

end Sys2Proof.Machine
end

