-- ==== Sys2Proof/Laws/Step.lean ====
section
/-! SUPPORT. The shapes of a command's meaning: what time alone changes, what a command does that is due or not due, and what
follows every command of the blocks. -/

namespace Sys2Proof.Machine

/-! ### Time before a command -/

@[simp] theorem exm_advance (dt : Nat) (s : State) : (s.advance dt).exm = s.exm := by
  unfold State.advance; split
  · rfl
  · split <;> rfl
@[simp] theorem rpl_advance (dt : Nat) (s : State) : (s.advance dt).rpl = s.rpl := by
  unfold State.advance; split
  · rfl
  · split <;> rfl
@[simp] theorem sbc_advance (dt : Nat) (s : State) : (s.advance dt).sbc = s.sbc := by
  unfold State.advance; split
  · rfl
  · split <;> rfl
@[simp] theorem cmu_advance (dt : Nat) (s : State) : (s.advance dt).cmu = s.cmu := by
  unfold State.advance; split
  · rfl
  · split <;> rfl
@[simp] theorem mbu_advance (dt : Nat) (s : State) : (s.advance dt).mbu = s.mbu := by
  unfold State.advance; split
  · rfl
  · split <;> rfl
@[simp] theorem clu_advance (dt : Nat) (s : State) : (s.advance dt).clu = s.clu := by
  unfold State.advance; split
  · rfl
  · split <;> rfl
@[simp] theorem txu_advance (dt : Nat) (s : State) : (s.advance dt).txu = s.txu := by
  unfold State.advance; split
  · rfl
  · split <;> rfl
@[simp] theorem pins_advance (dt : Nat) (s : State) : (s.advance dt).pins = s.pins := by
  unfold State.advance; split
  · rfl
  · split <;> rfl
@[simp] theorem pending_advance (dt : Nat) (s : State) : (s.advance dt).pending = s.pending := by
  unfold State.advance; split
  · rfl
  · split <;> rfl
@[simp] theorem ctx_advance (dt : Nat) (s : State) : (s.advance dt).tmu.ctx = s.tmu.ctx := by
  unfold State.advance; split
  · rfl
  · split <;> rfl
@[simp] theorem freed_advance (dt : Nat) (s : State) : (s.advance dt).tmu.freed = s.tmu.freed := by
  unfold State.advance; split
  · rfl
  · split <;> rfl
@[simp] theorem power_advance (dt : Nat) (s : State) : (s.advance dt).pwc.state = s.pwc.state := by
  unfold State.advance; split
  · rfl
  · split <;> rfl

/-- Time alone does not change whether the blocks work. -/
@[simp] theorem working_advance (dt : Nat) (s : State) : (s.advance dt).working = s.working := by
  simp [State.working]

/-- In SLEEP the slow timer counts and local time is held; while the blocks work local time goes on. -/
theorem advance_of_working {dt : Nat} {s : State} (h : s.working = true) :
    s.advance dt = { s with tmu := { s.tmu with localTime := clockValue (s.tmu.localTime + dt) } } := by
  simp only [State.working, Bool.and_eq_true, Bool.or_eq_true, beq_iff_eq, Bool.not_eq_true'] at h
  unfold State.advance
  rw [if_neg (by simp [h.2]), if_neg]
  rcases h.1.2 with e | e <;> simp [e]

/-! ### Commands that are due and commands that are not -/

theorem direct_of_due {s : State} {dt : Nat} {g : State → Bool} {f : State → State} (h : g (s.advance dt) = true) :
    s.direct dt g f = .next (f (s.advance dt)) := by simp [State.direct, h]

theorem direct_of_not_due {s : State} {dt : Nat} {g : State → Bool} {f : State → State} (h : g (s.advance dt) = false) :
    s.direct dt g f = .next (s.advance dt) := by simp [State.direct, h]

theorem block_of_due {s : State} {dt : Nat} {g : State → Bool} {f : State → State} (hw : s.working = true)
    (h : g (s.advance dt) = true) : s.block dt g f = .next ((s.advance dt).finish (f (s.advance dt))) := by
  simp [State.block, State.direct, hw, h]

theorem block_of_not_due {s : State} {dt : Nat} {g : State → Bool} {f : State → State}
    (h : (s.working && g (s.advance dt)) = false) : s.block dt g f = .next (s.advance dt) := by
  simp [State.block, State.direct, h]

/-- Every command of these two shapes answers a next state. -/
theorem direct_next (s : State) (dt : Nat) (g : State → Bool) (f : State → State) : ∃ t, s.direct dt g f = .next t :=
  ⟨_, rfl⟩

/-- A command of the blocks that changes nothing while they do not work. -/
theorem block_of_not_working {s : State} {dt : Nat} {g : State → Bool} {f : State → State} (h : s.working = false) :
    s.block dt g f = .next (s.advance dt) := block_of_not_due (by simp [h])

/-! ### The sleep decision -/

/-- What the sleep decision leaves: everything but the power controller. -/
theorem setPower_frame (s : State) (p : Power) : ∃ q, s.setPower p = { s with pwc := q } ∧ q.drift = s.pwc.drift := by
  unfold State.setPower
  split
  · exact ⟨s.pwc, rfl, rfl⟩
  · exact ⟨_, rfl, rfl⟩

theorem sleepDecision_frame (s : State) : ∃ q, s.sleepDecision = { s with pwc := q } ∧ q.drift = s.pwc.drift := by
  unfold State.sleepDecision
  split
  · exact ⟨_, rfl, rfl⟩
  · split <;> exact setPower_frame s _

/-- The refresh of the contexts' activity leaves everything but the contexts. -/
theorem refresh_frame (s : State) : ∃ v, s.refresh = { s with tmu := { s.tmu with ctx := v } } := ⟨_, rfl⟩

/-- What follows a command of the blocks that has freed no context: the contexts' activity, the power controller and the marks
of the step alone can change. -/
theorem finish_frame (s0 s : State) (h : s.tmu.freed = false) :
    ∃ v q, s0.finish s = ({ s with tmu := { s.tmu with ctx := v }, pwc := q } : State).clearMarks ∧
      q.drift = s.pwc.drift := by
  obtain ⟨v, hv⟩ := refresh_frame s
  have e : (if s.tmu.freed = true then s.retry fun _ => true else s) = s := if_neg (by simp [h])
  unfold State.finish
  dsimp only
  rw [e, hv]
  split
  · obtain ⟨q, hq, hd⟩ := sleepDecision_frame { s with tmu := { s.tmu with ctx := v } }
    exact ⟨v, q, by rw [hq], hd⟩
  · exact ⟨v, s.pwc, rfl, rfl⟩

end Sys2Proof.Machine
end

