-- ==== Sys2Proof/Laws/Ports.lean ====
section
/-! SUPPORT. What the operations of the register window do, bit by bit and as a whole write (R182), and what suspending an uplink
frame, counting arrivals, taking a guest, noting a MEASURE granted, closing an acknowledgement window, a STOP's settling
of withdraws, a sleep decision, tracking a beacon and keeping a head that has reached a limit do (R118, R120, R109, R89, R156,
R160, R171, R1, R162). -/

namespace Sys2Proof.Machine

/-! ### Byte lanes of a register write -/

theorem getLsbD_laneAreas (lanes : BitVec 4) {i : Nat} (h : i < 9) : (laneAreas lanes).getLsbD i = lanes.getLsbD (i / 8) := by
  have all : ∀ (l : BitVec 4) (j : Fin 9), (laneAreas l).getLsbD j.val = l.getLsbD (j.val / 8) := by decide
  exact all lanes ⟨i, h⟩

theorem getLsbD_areasWritten (lanes : BitVec 4) (data : Word) {i : Nat} (h : i < 9) :
    (areasWritten ⟨lanes, data⟩).getLsbD i = (lanes.getLsbD (i / 8) && data.getLsbD i) := by
  rw [areasWritten, BitVec.getLsbD_and, getLsbD_laneAreas lanes h]
  simp [h, Bool.and_comm]

theorem laneAreas_of_both {lanes : BitVec 4} (h0 : lanes.getLsbD 0 = true) (h1 : lanes.getLsbD 1 = true) :
    laneAreas lanes = BitVec.allOnes 9 := by
  unfold laneAreas
  rw [if_pos h0, if_pos h1]
  decide

theorem areasWritten_of_both {lanes : BitVec 4} (data : Word) (h0 : lanes.getLsbD 0 = true) (h1 : lanes.getLsbD 1 = true) :
    areasWritten ⟨lanes, data⟩ = data.truncate 9 := by
  rw [areasWritten, laneAreas_of_both h0 h1, BitVec.and_allOnes]

@[simp] theorem laneAreas_whole : laneAreas 15 = BitVec.allOnes 9 := laneAreas_of_both (by decide) (by decide)
@[simp] theorem areasWritten_whole (data : Word) : areasWritten ⟨15, data⟩ = data.truncate 9 :=
  areasWritten_of_both data (by decide) (by decide)

/-- A command of the register window that is taken acts on the state after its time. -/
theorem alive_advance {s : State} (dt : Nat) (h : s.pins.resetHeld = false) : (s.advance dt).alive = true := by
  simp [State.alive, h]

theorem execPendingWrite_eq {s : State} (dt : Nat) (w : LaneWord) (h : s.pins.resetHeld = false) :
    execPendingWrite dt w s = .next { s.advance dt with exm := { (s.advance dt).exm with
      attn := (s.advance dt).exm.attn &&& ~~~ (areasWritten w) } } := direct_of_due (alive_advance dt h)

theorem execEnableWrite_eq {s : State} (dt : Nat) (w : LaneWord) (h : s.pins.resetHeld = false) :
    execEnableWrite dt w s = .next { s.advance dt with exm := { (s.advance dt).exm with
      enable := ((s.advance dt).exm.enable &&& ~~~ (laneAreas w.lanes)) ||| areasWritten w } } :=
  direct_of_due (alive_advance dt h)

/-! ### Suspended frames, arrivals, guests -/

/-- An entry that names the frame is SUSPENDED after it is suspended. -/
theorem status_upSuspend (s : State) (k : Fin 4) (f : Frame) (h : ((s.call k).part.status[cellIndex f]).frame = f) :
    ((s.upSuspend k f).call k).part.status[cellIndex f] = { frame := f, outcome := .suspended } := by
  unfold State.upSuspend
  split
  · next e =>
    cases x : (s.call k).part.status[cellIndex f] with | mk a b => rw [x] at h e; cases h; cases e; rfl
  · unfold State.upFinal
    rw [if_pos h]
    unfold State.upWrite State.callStatusUpd State.raiseIf
    split <;> simp [State.raise, State.modCall, State.call]

/-- No more than four arrivals are counted, none at the event that offers the first target frame. -/
theorem arrivalsAt_le (n f : Frame) : arrivalsAt n f ≤ arrivalMax := Nat.min_le_left _ _
theorem arrivalsAt_first (n f : Frame) (h : (f - n).toNat ≤ 1) : arrivalsAt n f = 0 := by
  unfold arrivalsAt
  omega

/-- A guest taken for another record leaves no reselection in hand that is held in it. -/
theorem inHand_takeGuest (s : State) (x : Sub) (g : Fin 18) (f : CellRec → CellRec) :
    ((s.takeGuest x g f).mbu.get x).inHand = (s.mbu.get x).inHand.filter fun c => c.2 != g := by
  cases x <;> rfl

/-! ### MEASUREs granted -/

/-- The next neighbour is eligible, and none of those already granted. -/
theorem nextNeighbour_fresh {s : State} {x : Sub} {g : List (Fin 18)} {r : Fin 18} (h : s.nextNeighbour x g = some r) :
    s.measurable x r = true ∧ r ∉ g := by
  simpa using List.find?_some h

/-- A record noted in a frame is among those granted a MEASURE in it, while it holds the key it was noted with. -/
theorem mem_measuredIn_noteMeasure (s : State) (x : Sub) (c : Fin 3) (f : Frame) (r : Fin 18) :
    r ∈ (s.noteMeasure x c f r).measuredIn x c f := by
  refine List.mem_map.2 ⟨{ sub := x, frame := f, record := r, key := (s.cell x r).key }, List.mem_filter.2 ⟨?_, ?_⟩, rfl⟩
  · simp [State.noteMeasure, Ctx.noteMeasure]
  · simp [State.noteMeasure, State.cell_modCtx]

/-- Noting a MEASURE changes the context's marks alone. -/
theorem noteMeasure_frame (s : State) (x : Sub) (c : Fin 3) (f : Frame) (r : Fin 18) :
    ∃ l, s.noteMeasure x c f r = s.modCtx c fun t => { t with measured := l } := ⟨_, rfl⟩

/-! ### Acknowledgement windows -/

theorem flight_promote {s : State} {x : Sub} (h : (s.side x).flight = none) : ((s.promote x).side x).flight = none := by
  unfold State.promote
  split
  · exact h
  · split
    · simp [SendSide.fresh]
    · exact h

/-- An attempt that fails leaves no segment in flight (R158). -/
theorem flight_attemptFailed {s : State} {x : Sub} {i : Fin 8} (e : Frame) (h : s.head x = some i) :
    ((s.attemptFailed x e).side x).flight = none := by
  unfold State.attemptFailed
  rw [h]
  dsimp only
  split
  · simp only [State.head] at h
    simp [State.finishHead, State.leaveQueue, State.head, State.side_slotUpd, h, flight_promote]
  · simp [State.side_slotUpd]

/-! ### Heads that have reached a limit -/

/-- A return to a cell neither resumes nor restarts a head that has reached a limit (R158, R162). -/
theorem textsBack_of_headOut {s : State} {x : Sub} (b : Bool) (h : s.headOut x = true) : s.textsBack x b = s.keepOut x :=
  if_pos h

/-- Such a head keeps what its side holds but the pause timer, which it has no more. -/
theorem side_keepOut {s : State} {x : Sub} {i : Fin 8} (h : s.head x = some i) :
    (s.keepOut x).side x = { s.side x with pause := none } := by
  unfold State.keepOut
  rw [h]
  dsimp only
  split <;> simp [State.side_slotUpd]

/-! ### Withdraws at STOP, the sleep decision -/

theorem slot_modSlot (s : State) (i j : Fin 8) (f : OutSlot → OutSlot) :
    (s.modSlot i f).slot j = if j = i then f (s.slot j) else s.slot j := by
  split
  · next h => rw [h, State.slot_modSlot_same]
  · next h => exact State.slot_modSlot_other s h f

/-- Settling the withdraws writes the outbox slots alone. -/
theorem dropWithdraws_frame (s : State) :
    ∃ v, s.dropWithdraws = { s with txu := { s.txu with slots := v } } := by
  have all : ∀ (l : List (Fin 8)) (s : State), ∃ v,
      l.foldl (fun s i => s.modSlot i fun o => { o with withdraw := false }) s = { s with txu := { s.txu with slots := v } } := by
    intro l
    induction l with
    | nil => exact fun s => ⟨s.txu.slots, rfl⟩
    | cons i l ih =>
      intro s
      obtain ⟨v, h⟩ := ih (s.modSlot i fun o => { o with withdraw := false })
      exact ⟨v, h⟩
  exact all allSlots s

/-- No slot has a withdraw pending once STOP has settled them, and nothing else of a slot changes. -/
theorem slot_dropWithdraws (s : State) (i : Fin 8) : s.dropWithdraws.slot i = { s.slot i with withdraw := false } := by
  have all : ∀ (l : List (Fin 8)) (s : State),
      (l.foldl (fun s i => s.modSlot i fun o => { o with withdraw := false }) s).slot i =
        if i ∈ l then { s.slot i with withdraw := false } else s.slot i := by
    intro l
    induction l with
    | nil => intro s; rfl
    | cons j l ih =>
      intro s
      rw [List.foldl_cons, ih, slot_modSlot]
      by_cases h : i = j <;> by_cases m : i ∈ l <;> simp [h, m]
  have mem : ∀ j : Fin 8, j ∈ allSlots := by decide
  exact (all allSlots s).trans (if_pos (mem i))

/-- The power state that a sleep decision gives (R171). -/
theorem power_sleepDecision (s : State) : s.sleepDecision.pwc.state =
    if s.pwc.permit = .full ∧ s.sleepConditions.all id = true ∧ s.gapAtLeast sleepGap = true then .sleep
    else if s.pwc.permit ≠ .none ∧ s.gapAtLeast napGap = true then .nap else .run := by
  have set : ∀ p, (s.setPower p).pwc.state = p := by
    intro p
    unfold State.setPower
    split
    · assumption
    · rfl
  unfold State.sleepDecision
  split
  · rfl
  · split <;> exact set _

/-- What a sleep decision reads is the same after it. -/
theorem sleepDecision_reads (s : State) : s.sleepDecision.pwc.permit = s.pwc.permit ∧
    s.sleepDecision.sleepConditions = s.sleepConditions ∧ s.sleepDecision.nextPlan = s.nextPlan ∧
    s.sleepDecision.now = s.now ∧ s.sleepDecision.limitReached = s.limitReached := by
  have set : ∀ p, (s.setPower p).pwc.permit = s.pwc.permit ∧ (s.setPower p).sleepConditions = s.sleepConditions ∧
      (s.setPower p).nextPlan = s.nextPlan ∧ (s.setPower p).now = s.now ∧
      (s.setPower p).limitReached = s.limitReached := by
    intro p
    unfold State.setPower
    split <;> exact ⟨rfl, rfl, rfl, rfl, rfl⟩
  unfold State.sleepDecision
  split
  · exact ⟨rfl, rfl, rfl, rfl, rfl⟩
  · split <;> exact set _

/-- The marks of a step are no part of a limit. -/
@[simp] theorem limitReached_clearMarks (s : State) : s.clearMarks.limitReached = s.limitReached := rfl

/-- Time in SLEEP reaches no limit: local time is held. -/
theorem limitReached_advance_asleep {s : State} (dt : Nat) (h : s.pwc.state = .sleep) :
    (s.advance dt).limitReached = s.limitReached := by
  unfold State.advance
  rw [if_pos h]
  split <;> rfl

/-- What follows a command of the blocks puts the part in SLEEP only where no limit is reached. -/
theorem finish_asleep {s0 s : State} (hs : s.pwc.state ≠ .sleep) (hf : s.tmu.freed = false)
    (h : (s0.finish s).pwc.state = .sleep) : (s0.finish s).limitReached = false := by
  have e : (if s.tmu.freed = true then s.retry fun _ => true else s) = s := if_neg (by simp [hf])
  unfold State.finish at h ⊢
  dsimp only at h ⊢
  rw [e] at h ⊢
  split at h
  · next d =>
    rw [if_pos d, limitReached_clearMarks, (sleepDecision_reads s.refresh).2.2.2.2]
    simp only [State.decides, Bool.and_eq_true, Bool.not_eq_true'] at d
    exact d.1.2
  · exact absurd h hs

/-! ### The start of a frame (R1) -/

/-- The capture of the beacon just tracked, or found, is the start of its frame. -/
theorem frameStart_track (c : Ctx) (f : Frame) (e : Int) :
    (c.track f e).frameStart f = ((c.predict f : Int) + e).toNat := by
  unfold Ctx.track Ctx.frameStart
  dsimp only
  split
  · exact if_pos rfl
  · split <;> exact if_pos rfl
theorem frameStart_found (c : Ctx) (f : Frame) (t : Nat) : (c.found f t).frameStart f = t := if_pos rfl

/-- A frame whose beacon's capture is not held starts as predicted. -/
theorem frameStart_predicted {c : Ctx} {f : Frame} (h : f ≠ c.anchorFrame) : c.frameStart f = c.startOf f := if_neg h

end Sys2Proof.Machine
end

