-- ==== Sys2Proof/Tests/Slice0.lean ====
section
/-! SUPPORT. Tests: well-formedness refused term by term, the manual's own numbers, and for each statement a state that meets
its hypotheses, with what the command does there. -/

set_option maxRecDepth 20000

namespace Sys2Proof.Tests

open Sys2Proof Sys2Proof.Machine

/-! ### Well-formed commands: each check refuses an ill-formed term -/

theorem test_wf_lanes : (Instr.hostMemoryWrite 0 0 0 7).wf = false ∧ (Instr.hostMemoryWrite 0 0 1 7).wf = true := by decide
theorem test_wf_live_register :
    (Instr.ignoredRegisterWrite 0 0x4001 ⟨1, 0⟩).wf = false ∧ (Instr.ignoredRegisterWrite 0 0x4000 ⟨1, 0⟩).wf = true := by decide
theorem test_wf_inside_memory :
    (Instr.ignoredRegisterWrite 0 0x3FFF ⟨1, 0⟩).wf = false ∧ (Instr.ignoredRegisterWrite 0 0x7FFF ⟨1, 0⟩).wf = true := by decide
theorem test_wf_register_lanes :
    (Instr.ignoredRegisterWrite 0 0x4000 ⟨0, 0⟩).wf = false ∧ (Instr.scanWrite 0 ⟨0, 1⟩).wf = false ∧
      (Instr.pendingWrite 0 ⟨0, 1⟩).wf = false ∧ (Instr.enableWrite 0 ⟨0, 1⟩).wf = false ∧ (Instr.enableWrite 0 ⟨2, 1⟩).wf = true := by
  decide
theorem test_wf_control_lanes : (Instr.ignoredRegisterWrite 0 0x4001 ⟨15, 1⟩).wf = false ∧
    (Instr.ignoredRegisterWrite 0 0x4001 ⟨14, 1⟩).wf = true ∧ (Instr.ignoredRegisterWrite 0 0x4002 ⟨14, 1⟩).wf = false := by
  decide
theorem test_wf_area : (Instr.noEffectScanTake 0 .subs).wf = false ∧ (Instr.noEffectScanTake 0 .voice).wf = true := by decide
theorem test_wf_role :
    (Instr.seekDeadline 0 0 .serving .a).wf = false ∧ (Instr.seekDeadline 0 0 .search .a).wf = true := by decide

/-- A beacon of code 7 and frame `f`, captured at `t`, with the mismatch given. -/
def beaconOf (t : Nat) (f : Frame) (mismatch : Nat) : Beacon :=
  { capture := t, mismatch := mismatch, code := 7, area := 3, frame := f, barred := false, paging := [], acks := [],
    level := 90 }

theorem test_wf_mismatch :
    (Instr.beaconReport 0 0 (beaconOf 0 0 17)).wf = false ∧ (Instr.beaconReport 0 0 (beaconOf 0 0 16)).wf = true := by decide
theorem test_wf_payload :
    (Instr.blockReport 0 0 (some (.voice (List.replicate 256 0))) 0).wf = false ∧
      (Instr.blockReport 0 0 (some (.voice [1])) 0).wf = true := by decide
theorem test_wf_queue : pendingWf [.powerOn 0, .seekDeadline 0 0 .serving .a] = false ∧ pendingWf [.powerOn 0] = true := by
  decide

/-! ### The manual's numbers -/

theorem test_frame_order : ahead 2 65534 = true ∧ ahead 32768 0 = false ∧ plusFrames 65534 4 = 2 := by decide
theorem test_minislot : minislot 0 0 = 0 ∧ minislot 3 4 = 2 ∧ minislot 0xFFFFFFFF 65535 = 0 := by decide
theorem test_sleep_ticks : sleepTicks 1280000 160 = 41943 := by decide
theorem test_elapsed : elapsedTime 41943 160 = 1279986 ∧ elapsedTime 16384 160 = 499995 := by decide
theorem test_drift : driftAfter 160 (-40) 1279986 = 35 := by decide
theorem test_cycle_code : cycleFrames 7 = 256 ∧ cycleFrames 0 = 32 := by decide
theorem test_signed_field : clampInt (-24) 24 (signedField 0x9C 0 8) = -24 := by decide
theorem test_area : areaOf 0x300 = some .subs ∧ areaOf 0x5000 = none ∧ hostWritten 0x300 = false ∧
    hostWritten 0x2FC = true ∧ hostWritten 0x13C = true ∧ hostWritten 0x140 = false := by decide
theorem test_memory :
    memRead (memWrite [(4, 1), (9, 2)] 7 3) 7 = 3 ∧ memWrite [(4, 1), (9, 2)] 4 0 = [(9, 2)] ∧
      memWf (memWrite [(4, 1), (9, 2)] 7 3) = true := by decide


/-! ### States for the tests -/

/-- The state a command leaves. -/
def after (c : Instr) (s : State) : State :=
  match exec c s with
  | .next t => t
  | _ => s

/-- A RUNNING part, 12,000 µs after its reset. -/
def running : State :=
  { State.reset with exm := { Exm.reset with run := .running }, tmu := { Tmu.reset with localTime := 12000 } }

def cellKey : Key := { channel := 5, code := 7 }

/-- Context 0 follows cell 7 for A from frame 10 at 1,000 µs: frame 11 starts at 11,000 and frame 12 at 21,000. -/
def ctx0 : Ctx :=
  { Ctx.reset with state := .locked, key := cellKey, users := [{ role := .serving, sub := .a, deadline := none }],
                   anchorTime := 1000, anchorFrame := 10, lastPlanned := some 11 }

/-- A is CAMPED on record 0 through context 0, its next window frame 12. -/
def camped : State :=
  ((running.modCtx 0 fun _ => ctx0).modSbc .a fun b =>
    { b with part := { b.part with state := .camped, serving := some 0, servingCode := 7 }, window := some 12,
             areaKnown := true }).modCell .a 0 fun c => { c with role := .serving, key := cellKey }

/-- Call 0 of A in the given state, with slots 1 and 4. -/
def withCall (st : CallState) (s : State) : State :=
  s.modCall 0 fun c => { c with part := { c.part with state := st, owner := .a, down := 1, up := 4, ref := 9 } }

/-- A is in the given subscription state with its machine in the given one, and context 0 is CONTINUOUS. -/
def inCall (st : SubState) (m : MachineState) : State :=
  (((withCall .active camped).modSbc .a fun b => { b with part := { b.part with state := st }, window := none }).modCtx 0
    fun c => { c with continuous := true }).modMachine .a fun h => { h with state := m }

/-- A STARTED occupancy of A on context 0, handle 1, frame 11. -/
def heard (k : Kind) (c : Content) : Occ :=
  { handle := 1, kind := k, cls := 2, ctx := 0, alloc := 0, frame := 11, slot := 1, mini := 0, channel := 5,
    start := 10800, stop := 12450, issue := 10600, content := c, who := ⟨some { kind := k, cls := 2, use := .call }, none⟩,
    call := some 0, started := true }

/-- The plan list of a state. -/
def withPlan (l : List Occ) (s : State) : State := { s with rpl := { s.rpl with plan := l } }

/-- The head of A's send queue is slot 0, SENDING, its fourth attempt made. -/
def withHead (s : State) : State :=
  (s.modSlot 0 fun o => { o with state := .sending, attempts := 4, segments := 1 }).modSide .a fun d =>
    { d with queue := [0] }

/-- The scan-pending mask of a state. -/
def withScan (m : BitVec 9) (s : State) : State := { s with exm := { s.exm with scan := m } }

/-! ### The step and the host port -/

theorem test_step_front : ∃ (c : Instr) (q : List Instr) (s : State), step { s with pending := c :: q } = exec c { s with pending := q } :=
  ⟨.powerOn 0, [], State.reset, rfl⟩
theorem test_withFetchWord : State.reset.withFetchWord 32 5 = State.reset := rfl
theorem test_tick_run : State.reset.pending = [] ∧ State.reset.pins.resetHeld = false ∧ State.reset.pwc.state ≠ .sleep ∧
    State.reset.tmu.refCycles < 25 := by decide
theorem test_tick_micro :
    (({ running with tmu := { running.tmu with refCycles := 25 } } : State).tick).tmu.localTime = 12001 := by decide
theorem test_tick_sleep :
    (({ running with pwc := { running.pwc with state := .sleep, target := 9 } } : State).tick).pwc.timer = 1 := by decide
theorem test_block_idle : isBlockCommand (.loss 5 0) = true ∧ (State.reset.advance 5).working = false := by decide
theorem test_invariants_of_running :
    camped.memOk = true ∧ camped.planOk = true ∧ camped.powerOk = true ∧ camped.oneCallOk = true ∧ camped.driftOk = true ∧
      camped.sleepOk = true ∧ camped.marksOk = true := by decide
theorem test_start_ok :
    let s := after (.hostMemoryWrite 0 0 15 1) State.reset
    s.exm.run = .stopped ∧ s.setupVersion = 1 ∧ (after (.start 0) s).exm.run = .starting := by decide
theorem test_start_takes_the_tables :
    let s := after (.hostMemoryWrite 0 0x231 15 0x00050007) (after (.hostMemoryWrite 0 0x230 15 1)
      (after (.hostMemoryWrite 0 0 15 1) (State.reset.modCell .a 0 fun c => { c with count := 9, probe := some 3 })))
    s.setupVersion = 1 ∧ (allRecs.filter fun r => (s.readCell .a r).inUse && decide (r.val < 16)).length = 1 ∧
      ((after (.start 0) s).cell .a 0).count = 0 ∧ ((after (.start 0) s).cell .a 0).probe = none ∧
      (allRecs.filter fun r => ((after (.start 0) s).cell .a r).role == .neighbour).length = 1 := by decide
theorem test_start_bad_version :
    State.reset.setupVersion ≠ 1 ∧ (after (.start 0) State.reset).exm.badSetup = true := by decide
/-- A STARTING part with A enabled. -/
def enabledStart : State :=
  after (.start 0) (after (.hostMemoryWrite 0 0x80 15 1) (after (.hostMemoryWrite 0 0 15 1) State.reset))

theorem test_running_entry :
    let s := enabledStart
    s.exm.run = .starting ∧ (s.set .a).enable = true ∧ (s.sub .a).state = .off ∧
      ((after (.runningEntry 0) s).sub .a).state = .lost := by decide
/-- A STARTING part with A enabled and record 3 of A in use. -/
def startWithCell : State := enabledStart.modCell .a 3 fun c => { c with role := .neighbour, key := cellKey }

theorem test_running_entry_searches :
    startWithCell.pins.resetHeld = false ∧ startWithCell.exm.run = .starting ∧ startWithCell.exm.scan = 0 ∧
      (startWithCell.set .a).enable = true ∧ (startWithCell.sub .a).state = .off ∧ startWithCell.tmu.deferred = [] ∧
      startWithCell.tryable .a 3 = true ∧ ((after (.runningEntry 0) startWithCell).sub .a).state = .searching ∧
      ((after (.runningEntry 0) startWithCell).sub .a).cause = .enabled := by decide
theorem test_running_entry_lost :
    (∀ r ∈ hostRecs, enabledStart.tryable .a r = false) ∧ ((after (.runningEntry 0) enabledStart).sub .a).cause = .noCells ∧
      ((after (.runningEntry 0) enabledStart).sbc.get .a).lostRetry = some 30000000 := by decide
theorem test_running_entry_takes :
    let s := withScan 0x0EE (after (.hostMemoryWrite 0 0xE3F 15 6) (after (.hostMemoryWrite 0 0x81 15 77) enabledStart))
    s.exm.run = .starting ∧ s.scanSet .subs = true ∧ s.scanSet .cells = true ∧ s.scanSet .calls = true ∧
      s.scanSet .outbox = true ∧ s.scanSet .inbox = true ∧ s.scanSet .fault = true ∧
      ((after (.runningEntry 0) s).set .a).tag = 77 ∧ ((after (.runningEntry 0) s).txu.inbox[0]).release = 6 := by decide
theorem test_running_entry_clears_fault :
    let s := withScan 128 { enabledStart with exm := { enabledStart.exm with fault := { FaultRecord.reset with held := true } } }
    s.exm.run = .starting ∧ s.scanSet .fault = true ∧ s.exm.fault.held = true ∧ s.faultAck = s.exm.fault.stamp ∧
      (after (.runningEntry 0) s).exm.fault.held = false := by decide
theorem test_stop_running : camped.exm.run ≠ .stopped ∧ camped.pwc.state = .run ∧
    (after (.stop 0) camped).exm.run = .stopped ∧ ((after (.stop 0) camped).sub .a).state = .off := by decide
/-- A's probe of record 0 pends, its call 0 is ACTIVE, and slot 0 is its head, a segment GRANTED in the plan list. -/
def stopping (w : Bool) : State :=
  (((withPlan [{ heard .txOpen (.send 0 (.textSegment 0 0 true [])) with started := false, call := none }]
    (withHead (inCall .connected .watch))).modSide .a fun d =>
      { d with flight := some { handle := 1, frame := 11, sent := false } }).modSlot 0 fun o => { o with withdraw := w }).modCell .a 0
      fun c => { c with probe := some 6 }

theorem test_stop_settles :
    radioHolding ((stopping false).call 0).part.state = true ∧ (0 : Fin 8) ∈ ((stopping false).side .a).queue ∧
      ((after (.stop 0) (stopping false)).call 0).part.cause = .stopped ∧
      ((after (.stop 0) (stopping false)).slot 0).cause = .stopped ∧
      ((after (.stop 0) (stopping false)).cell .a 0).probeTaken = 6 ∧
      ((after (.stop 0) (stopping false)).cell .a 0).role = .serving := by decide
theorem test_stop_fails_a_withdraw_pending :
    ((stopping true).slot 0).withdraw = true ∧ ((after (.stop 0) (stopping true)).slot 0).state = .failed ∧
      ((after (.stop 0) (stopping true)).slot 0).cause = .stopped ∧
      ((after (.stop 0) (stopping true)).slot 0).final = 12000 := by decide
theorem test_stop_stopped : State.reset.exm.run = .stopped ∧ State.reset.pins.resetHeld = false := by decide

/-- The part asleep, its slow timer at its target. -/
def asleep : State := { camped with pwc := { Pwc.reset with state := .sleep, timer := 16384, target := 16384 } }
/-- The part waking, its 3,000 µs over. -/
def waking : State := { camped with pwc := { Pwc.reset with state := .waking, wakeEnd := 12000 } }

theorem test_stop_asleep : asleep.exm.run ≠ .stopped ∧ asleep.pwc.state = .sleep ∧
    (after (.stop 0) asleep).exm.heldStop = true := by decide
theorem test_stop_waking : waking.exm.run ≠ .stopped ∧ waking.pwc.state = .waking ∧
    (after (.stop 0) waking).exm.heldStop = true := by decide
theorem test_host_write : State.reset.memOk = true ∧ hostWritten (4 * (0 : BitVec 14).toNat) = true ∧
    (after (.hostMemoryWrite 0 0 2 0x1234) State.reset).exm.mem = [(1, 0x12)] := by decide
theorem test_dropped_write : hostWritten (4 * (0xC0 : BitVec 14).toNat) = false ∧ State.reset.exm.fault.held = false ∧
    (after (.hostMemoryWrite 0 0xC0 15 0) State.reset).exm.fault.offset = 0x300 ∧
    (after (.hostMemoryWrite 0 0xC0 15 0) State.reset).exm.fault.area = some .subs := by decide
theorem test_dropped_twice :
    let s := after (.hostMemoryWrite 0 0xC0 15 0) State.reset
    s.exm.fault.held = true ∧ s.exm.fault.drops < 65535 ∧ (after (.hostMemoryWrite 0 0xC0 15 0) s).exm.fault.drops = 1 := by
  decide
theorem test_dropped_full : ∃ s : State, s.exm.fault.held = true ∧ 65535 ≤ s.exm.fault.drops ∧ s.pins.resetHeld = false :=
  ⟨{ State.reset with exm := { Exm.reset with fault := { FaultRecord.reset with held := true, drops := 65535 } } }, by decide⟩
theorem test_scan_write : running.pwc.state ≠ .sleep ∧ (after (.scanWrite 0 ⟨15, 0x1005⟩) running).exm.scan = 5 := by decide
theorem test_scan_write_lane : (after (.scanWrite 0 ⟨2, 0x1FF⟩) running).exm.scan = 0x100 ∧
    (after (.scanWrite 0 ⟨1, 0x1FF⟩) running).exm.scan = 0x0FF := by decide
theorem test_enable_write_lane :
    (after (.enableWrite 0 ⟨1, 0x003⟩) (after (.enableWrite 0 ⟨15, 0x1F0⟩) running)).exm.enable = 0x103 := by decide
theorem test_pending_write_lane :
    let s : State := { running with exm := { running.exm with attn := 0x1FF } }
    (after (.pendingWrite 0 ⟨2, 0x1FF⟩) s).exm.attn = 0x0FF ∧ (after (.pendingWrite 0 ⟨15, 0x006⟩) s).exm.attn = 0x1F9 := by decide
theorem test_control_lane : after (.ignoredRegisterWrite 0 0x4001 ⟨14, 2⟩) running = running := by decide
theorem test_transceiver : asleep.transceiverEnabled = false ∧ waking.transceiverEnabled = true ∧
    ({ running with pwc := { running.pwc with state := .nap } } : State).transceiverStandby = true ∧
    running.transceiverStandby = false := by decide
theorem test_scan_write_asleep : asleep.powerOk = true ∧ asleep.sleepOk = true ∧ (after (.scanWrite 0 ⟨15, 4⟩) asleep).pwc.state = .waking := by decide
theorem test_clock : (after (.clockLoRead 5) running).exm.readData = 12005 ∧ (after (.clockLoRead 5) asleep).now = 12000 := by
  decide

/-- A transmit of A on context 0, GRANTED for the next frame. -/
def grantedSend : Occ :=
  { heard .txVoice (.send 0 .silence) with start := 20000, stop := 21250, issue := 19800, started := false }

theorem test_read_port :
    State.reset.readPort 0x4000 = 0x03400001 ∧ (after (.enableWrite 0 ⟨15, 0x305⟩) running).readPort 0x4004 = 0x105 ∧
      running.readPort 0x4001 = 0x21 ∧ running.readPort 0x4002 = 0 ∧ running.readPort 0x4005 = 12000 ∧
      (after (.hostMemoryWrite 0 3 15 9) running).readPort 3 = 9 ∧ camped.readPort 0xC0 = 2 := by decide
theorem test_inhibit_on :
    let s := withPlan [grantedSend] camped
    s.working = true ∧ s.rpl.inhibit = false ∧ (after (.txInhibitAssert 0) s).rpl.plan = [] := by decide
theorem test_inhibit_idle : State.reset.working = false ∧
    (after (.txInhibitAssert 0) State.reset).pins.txInhibit = true := by decide
theorem test_inhibit_off :
    let s : State := { camped with rpl := { camped.rpl with inhibit := true } }
    s.working = true ∧ s.rpl.inhibit = true ∧ s.marksOk = true ∧
      ((after (.txInhibitRelease 0) s).ctx 0).hold = some { release := 11, waiting := true } := by decide

/-! ### Scan takes -/

theorem test_takes_due : (withScan 0x1FF camped).working = true ∧ (withScan 0x1FF camped).marksOk = true ∧
    (withScan 0x1FF camped).scanSet .subs = true ∧ (withScan 0x1FF camped).scanSet .cells = true ∧
    (withScan 0x1FF camped).scanSet .calls = true ∧ (withScan 0x1FF camped).scanSet .outbox = true ∧
    (withScan 0x1FF camped).scanSet .inbox = true ∧ (withScan 0x1FF camped).scanSet .fault = true ∧
    (withScan 0x1FF camped).scanSet .setup = true ∧ (withScan 0x1FF camped).scanSet .voice = true ∧
    (withScan 0x1FF camped).scanSet .power = true := by decide
theorem test_take_subs :
    let s := withScan 2 (after (.hostMemoryWrite 0 0x81 15 77) running)
    ((after (.subsScanTake 0) s).set .a).tag = 77 := by decide
theorem test_take_cells :
    let s := withScan 4 (after (.hostMemoryWrite 0 0x201 15 0x00050007) (after (.hostMemoryWrite 0 0x200 15 1) running))
    ((after (.cellsScanTake 0) s).cell .a 0).key = cellKey ∧ ((after (.cellsScanTake 0) s).cell .a 0).used = true := by decide
theorem test_take_calls :
    let s := withScan 8 (after (.hostMemoryWrite 0 0x480 15 0x00010003) running)
    ((after (.callsScanTake 0) s).call 0).part.taken = 3 ∧ ((after (.callsScanTake 0) s).call 0).part.result = .noService := by
  decide
theorem test_take_outbox :
    let s := withScan 32 (after (.hostMemoryWrite 0 0xC00 15 0x00010004) running)
    ((after (.outboxScanTake 0) s).slot 0).taken = 4 ∧ ((after (.outboxScanTake 0) s).slot 0).result = .badLength := by decide
theorem test_take_inbox :
    let s := withScan 64 (after (.hostMemoryWrite 0 0xE3F 15 6) running)
    ((after (.inboxScanTake 0) s).txu.inbox[0]).release = 6 := by decide
theorem test_take_fault :
    let s := withScan 128 { running with exm := { running.exm with fault := { FaultRecord.reset with held := true } } }
    s.exm.fault.held = true ∧ s.faultAck = s.exm.fault.stamp ∧ (after (.faultScanTake 0) s).exm.fault.held = false := by decide
theorem test_take_fault_unacked :
    let s := withScan 128 { running with exm := { running.exm with fault := { FaultRecord.reset with held := true, stamp := 2 } } }
    s.faultAck ≠ s.exm.fault.stamp ∧ (after (.faultScanTake 0) s).exm.fault.held = true := by decide

/-! ### The radio link port -/

theorem test_issue :
    let o : Occ := { grantedSend with issue := 12000 }
    let s := withPlan [o] camped
    s.working = true ∧ s.marksOk = true ∧ s.rpl.plan.find? (fun p => !p.started) = some o ∧ o.issue ≤ (s.now : Int) ∧
      (after (.commandIssue 0 1) s).rpl.sent = [o.command, .idleAll] := by decide
theorem test_silent :
    let o : Occ := { heard .beacon .beacon with stop := 11500 }
    let s := withPlan [o] camped
    s.rpl.plan.find? (fun p => p.handle == 1 && p.started) = some o ∧ o.stop + 500 ≤ (s.now : Int) ∧
      (after (.occupancySilent 0 1) s).rpl.totalSilent = 1 := by decide

/-- The serving beacon of frame 11, STARTED. -/
def heardBeacon : Occ := { heard .beacon .beacon with slot := 0, call := none }

theorem test_beacon :
    let s := withPlan [heardBeacon] (inCall .connected .watch)
    s.working = true ∧ s.marksOk = true ∧ s.rpl.plan.find? (fun p => p.handle == 1 && p.started) = some heardBeacon ∧
      hearsBeacon heardBeacon.kind = true ∧ (s.now : Int) ≤ heardBeacon.stop + 500 ∧ s.routes heardBeacon = true ∧
      heardBeacon.isGrid = false ∧ (s.ctx 0).follows = true ∧ (s.ctx 0).users ≠ [] ∧
      (∀ w ∈ (s.ctx 0).users, w.role = .serving) ∧
      (deviation (s.ctx 0) (beaconOf 11006 11 0)).natAbs ≤ (s.ctx 0).window ∧
      ((after (.beaconReport 0 1 (beaconOf 11006 11 0)) s).ctx 0).anchorTime = 11003 ∧
      ((after (.beaconReport 0 1 (beaconOf 11006 11 0)) s).ctx 0).anchorFrame = 11 := by decide
/-- The serving beacon of frame 11 heard at `t` by a context with the streak and the wake mark given. -/
def tracked (t n : Nat) (neg wake : Bool) : Ctx :=
  (after (.beaconReport 0 1 (beaconOf t 11 0)) (withPlan [heardBeacon] ((inCall .connected .watch).modCtx 0 fun c =>
    { c with streak := n, streakNeg := neg, wakeMark := wake }))).ctx 0

theorem test_beacon_cases :
    (tracked 10995 2 true false).anchorTime = 10998 ∧ (tracked 10995 2 true false).streak = 0 ∧
      (tracked 11009 2 true false).anchorTime = 11000 ∧ (tracked 11009 2 true false).streak = 1 ∧
      (tracked 10990 1 true false).anchorTime = 11000 ∧ (tracked 10990 1 true false).streak = 2 ∧
      (tracked 10990 2 true false).anchorTime = 10990 ∧ (tracked 10990 2 true false).streak = 0 ∧
      (tracked 11003 0 false true).anchorTime = 11003 ∧ (tracked 11003 0 false true).wakeMark = false := by decide
theorem test_nothing :
    let s := withPlan [heardBeacon] (inCall .connected .watch)
    ((after (.nothingReport 0 1) s).ctx 0).misses = 1 := by decide
theorem test_block :
    let o := heard .rxVoice .block
    let p : DownPending :=
      { frame := 11, ctx := 0, alloc := 0, slot := 1, planned := 13500, epoch := 0, outcome := none }
    let s := withPlan [o] ((inCall .connected .watch).modCall 0 fun c => { c with pends := [p] })
    s.working = true ∧ s.marksOk = true ∧ s.rpl.plan.find? (fun p => p.handle == 1 && p.started) = some o ∧
      o.kind = .rxVoice ∧ o.call = some 0 ∧ (s.now : Int) ≤ o.stop + 500 ∧ s.routes o = true ∧
      ((after (.blockReport 0 1 (some (.voice [1, 2])) 0) s).call 0).pends = [{ p with outcome := some (.received, [1, 2]) }] := by
  decide
theorem test_level :
    let o : Occ := { heard .measure (.level cellKey none) with call := none }
    let s := withPlan [o] (inCall .connected .watch)
    s.working = true ∧ s.marksOk = true ∧ s.rpl.plan.find? (fun p => p.handle == 1 && p.started) = some o ∧
      s.routes o = true ∧ o.asks .a = true ∧ o.asks (otherSub .a) = false ∧ s.recordFor .a cellKey = some 0 ∧
      ((after (.levelReport 0 1 90) s).cell .a 0).level = 1440 := by decide
theorem test_sent :
    let o := heard .txVoice (.send 0 (.voice [1]))
    let s := withPlan [o] ((inCall .connected .watch).modCall 0 fun c =>
      { c with part := { c.part with status := c.part.status.set 3 { frame := 11, outcome := .taken } } })
    s.working = true ∧ s.marksOk = true ∧ s.rpl.plan.find? (fun p => p.handle == 1 && p.started) = some o ∧
      o.asks .a = true ∧ o.asks (otherSub .a) = false ∧ ((s.call 0).part.status[cellIndex o.frame]).frame = o.frame ∧
      ((after (.sentReport 0 1) s).call 0).part.status[cellIndex 11] = { frame := 11, outcome := .sent } := by decide

/-! ### The events of the timing contexts -/

theorem test_planning :
    let s := inCall .connected .watch
    s.working = true ∧ s.marksOk = true ∧ s.tmu.deferred = [] ∧ s.dueOffer 0 = some 12 ∧ (s.ctx 0).follows = true ∧
      (s.ctx 0).continuous = true ∧ (s.ctx 0).first = none ∧ (s.ctx 0).tooFar (plusFrames 11 1) = false ∧
      ((after (.planningEvent 0 0) s).ctx 0).lastPlanned = some 12 := by decide
theorem test_windowed :
    let s := (camped.advance 6000)
    s.working = true ∧ s.marksOk = true ∧ s.tmu.deferred = [] ∧ s.dueWindowed 0 = some 12 ∧
      (s.ctx 0).users = [{ role := .serving, sub := .a, deadline := none }] ∧ (s.sub .a).state = .camped ∧
      (s.sbc.get .a).window = some 12 ∧ ahead 12 (s.ctx 0).lastFrame = true ∧ (s.ctx 0).tooFar 12 = false ∧
      ((after (.windowedPlanningEvent 6000 0) camped).ctx 0).lastPlanned = some 12 := by decide

/-- Context 0 seeks cell 7 for A in the given role, its deadline 200 ms after its entry at 12,000. -/
def seeking (r : Role) : State :=
  (running.modCtx 0 fun c => c.seekFor cellKey { role := r, sub := .a, deadline := some 212000 } 12000).modCell .a 0
    fun c => { c with role := .neighbour, key := cellKey }

theorem test_seek :
    let s := seeking .search
    s.working = true ∧ s.marksOk = true ∧ s.tmu.deferred = [] ∧ (s.ctx 0).state = .seek ∧ (s.ctx 0).listen = 0 ∧
      s.rpl.plan = [] ∧ s.now < 13000 - 200 ∧ (∃ w ∈ (s.ctx 0).users, isSeek w.role = true ∧
        ∃ d, w.deadline = some d ∧ 13000 + 11250 ≤ d) ∧
      ((after (.seekPlanningEvent 0 0) s).rpl.plan.map fun o => (o.start, o.stop)) = [(13000, 24250)] := by
  refine ⟨by decide, by decide, by decide, by decide, by decide, by decide, by decide, ?_, by decide⟩
  exact ⟨{ role := .search, sub := .a, deadline := some 212000 }, by decide, by decide, 212000, rfl, by decide⟩
theorem test_base :
    let s := (inCall .connected .watch).modCall 0 fun c => { c with bases := [11] }
    s.working = true ∧ s.marksOk = true ∧ (s.call 0).bases = [11] ∧ s.servingCtx (s.call 0).part.owner = some 0 ∧
      (s.ctx 0).startOf 11 ≤ s.now ∧ ((after (.frameBaseWrite 0 0) s).call 0).part.baseTime = 11000 := by decide
theorem test_downlink :
    let p : DownPending :=
      { frame := 10, ctx := 0, alloc := 0, slot := 1, planned := 3500, epoch := 2, outcome := some (.received, [5]) }
    let s := (inCall .connected .watch).modCall 0 fun c => { c with pends := [p] }
    s.working = true ∧ s.marksOk = true ∧ (s.call 0).pends.find? (fun q => q.frame == 10 && s.downReady q) = some p ∧
      (((after (.downlinkCellWrite 0 0 10) s).call 0).cells[cellIndex 10]).time = 3500 := by decide
theorem test_holdover :
    let s := camped.modCtx 0 fun c => { c with misses := 4 }
    s.working = true ∧ s.marksOk = true ∧ (s.ctx 0).state = .locked ∧ 4 ≤ (s.ctx 0).misses ∧
      ((after (.holdoverEntry 0 0) s).ctx 0).state = .holdover := by decide
theorem test_loss :
    let s := camped.modCtx 0 fun c => { c with misses := 50 }
    s.working = true ∧ (s.ctx 0).follows = true ∧ 50 ≤ (s.ctx 0).misses ∧ (s.sub .a).state = .camped ∧
      (∀ x ∈ allSubs, (s.sbc.get x).search.isSome = true → (s.sub x).state = .searching) ∧ s.serviceOk = true ∧
      ((after (.loss 0 0) s).sub .a).serving = none ∧ ((after (.loss 0 0) s).sub .a).state = .searching := by decide

/-! ### Service -/

theorem test_windows_missed :
    let s := camped.modSbc .a fun b => { b with part := { b.part with missed := 4 } }
    s.working = true ∧ (s.sub .a).state = .camped ∧ 4 ≤ (s.sub .a).missed ∧
      (∀ d ∈ s.tmu.deferred, d.role ≠ .target) ∧ s.tryable .a 0 = true ∧
      ((after (.windowsMissed 0 .a) s).sub .a).serving = none ∧
      ((after (.windowsMissed 0 .a) s).sub .a).state = .searching ∧
      ((after (.windowsMissed 0 .a) s).sub .a).cause = .windowsMissed := by decide
theorem test_windows_missed_lost :
    let s := (camped.modSbc .a fun b => { b with part := { b.part with missed := 4 } }).modCell .a 0 fun c =>
      { c with barredUntil := 99999, failRun := 8 }
    (∀ r ∈ hostRecs, s.tryable .a r = false) ∧ ((after (.windowsMissed 0 .a) s).sub .a).state = .lost ∧
      ((after (.failRun 0 .a) s).sub .a).cause = .noCells ∧
      ((after (.windowsMissed 0 .a) s).sbc.get .a).lostRetry = some 30012000 := by decide
/-- A is CAMPED with 3 missed windows and the permit is FULL; the PAGING of its window 11 is STARTED. -/
def fourthWindow : State :=
  let s := withPlan [{ heard .paging .beacon with who := ⟨some { kind := .paging, cls := 3, use := .window }, none⟩, call := none }]
    (camped.modSbc .a fun b => { b with part := { b.part with missed := 3 }, window := some 75 })
  { s with pwc := { s.pwc with permit := .full } }

theorem test_fourth_miss_waits_awake :
    (after (.nothingReport 0 1) fourthWindow).limitReached = true ∧
      (after (.nothingReport 0 1) fourthWindow).pwc.state = .run ∧
      ((after (.nothingReport 0 1) (fourthWindow.modSbc .a fun b => { b with part := { b.part with missed := 2 } })).pwc.state =
        .sleep) := by decide
theorem test_fourth_miss_searches_at_once :
    let t := after (.windowsMissed 0 .a) (after (.nothingReport 0 1) fourthWindow)
    (t.sub .a).state = .searching ∧ (t.sub .a).cause = .windowsMissed ∧ t.limitReached = false ∧ (t.ctx 0).state = .seek := by
  decide
theorem test_fourth_miss_without_cells_sleeps :
    let t := after (.windowsMissed 0 .a) ((after (.nothingReport 0 1) fourthWindow).modCell .a 0 fun c =>
      { c with barredUntil := 300000000 })
    (t.sub .a).cause = .noCells ∧ t.limitReached = false ∧ t.pwc.state = .sleep ∧ t.sleepOk = true := by decide
theorem test_fail_run :
    let s := camped.modCell .a 0 fun c => { c with failRun := 8 }
    s.recordIn .a .serving = some 0 ∧ 8 ≤ (s.cell .a 0).failRun ∧
      ((after (.failRun 0 .a) s).sub .a).cause = .failRun := by decide
theorem test_link_failure :
    let s := (inCall .connected .watch).modCell .a 0 fun c => { c with failRun := 100 }
    s.working = true ∧ s.callOf .a = some 0 ∧ (s.sub .a).state = .connected ∧ s.recordIn .a .serving = some 0 ∧
      100 ≤ (s.cell .a 0).failRun ∧ ((after (.linkFailure 0 .a) s).call 0).part.cause = .linkLost := by decide
theorem test_second_failure :
    let s := inCall .moving .reverting
    s.callOf .a = some 0 ∧ ((s.advance 200000).machine .a).leaveTime + 200000 ≤ (s.advance 200000).now ∧
      ((after (.secondFailure 200000 .a) s).call 0).part.cause = .handoverLost := by decide
theorem test_seek_deadline_verify :
    let s := (seeking .verify).advance 200000
    s.working = true ∧ s.tmu.deferred = [] ∧ 212000 ≤ s.now ∧
      ({ role := .verify, sub := .a, deadline := some 212000 } : User) ∈ (s.ctx 0).users ∧
      s.recordFor .a (s.ctx 0).key = some 0 ∧
      ((after (.seekDeadline 0 0 .verify .a) s).cell .a 0).quietUntil = 10212000 := by decide
theorem test_seek_deadline_target :
    let s := ((seeking .target).advance 200000).modMachine .a fun m => { m with state := .acquire, leaveTime := 150000 }
    ({ role := .target, sub := .a, deadline := some 212000 } : User) ∈ (s.ctx 0).users ∧
      s.now < (s.machine .a).leaveTime + 200000 ∧
      ((after (.seekDeadline 0 0 .target .a) s).machine .a).state = .reverting := by decide

/-- A search of A on record 0, with the records given still to try. -/
def searching (l : List (Fin 18)) : State :=
  ((seeking .search).advance 200000).modSbc .a fun b =>
    { b with part := { b.part with state := .searching },
             search := some { rest := l, current := some (0, cellKey), again := [], changed := false } }

theorem test_seek_deadline_search :
    ({ role := .search, sub := .a, deadline := some 212000 } : User) ∈ ((searching [0]).ctx 0).users ∧
      (searching [0]).tryable .a 0 = true ∧ (searching [0]).tmu.deferred = [] ∧
      ((after (.seekDeadline 0 0 .search .a) (searching [0])).sbc.get .a).search =
        some { rest := [], current := some (0, cellKey), again := [], changed := false } := by decide
theorem test_seek_deadline_lost :
    ((searching []).sbc.get .a).search = some { rest := [], current := some (0, cellKey), again := [], changed := false } ∧
      ((after (.seekDeadline 0 0 .search .a) (searching [])).sub .a).cause = .notFound := by decide
/-- Every context seeks for a search; the one in context 2 has record 3, of the key asked for, as its next. -/
def crowded : State :=
  ((((searching [3]).modCell .a 3 fun c => { c with role := .neighbour, key := ⟨6, 8⟩ }).modCtx 1 fun _ =>
    { ctx0 with key := ⟨7, 7⟩ }).modCtx 2 fun _ => { ctx0 with key := ⟨8, 8⟩ })

theorem test_preempted_search_waits :
    let t := crowded.allocate .target .b ⟨6, 8⟩
    (t.ctx 0).key = ⟨6, 8⟩ ∧ (t.ctx 0).users.map User.role = [.target] ∧
      t.tmu.deferred = [{ role := .search, sub := .a, key := ⟨6, 8⟩ }] := by decide
theorem test_lost_retry :
    let s := running.modSbc .a fun b => { b with part := { b.part with state := .lost }, lostRetry := some 12000 }
    s.working = true ∧ s.marksOk = true ∧ (s.sub .a).state = .lost ∧ (∀ r ∈ hostRecs, s.tryable .a r = false) ∧
      ((after (.lostRetry 0 .a) s).sbc.get .a).lostRetry = some 30012000 := by decide
theorem test_lost_retry_searches :
    let s := (running.modSbc .a fun b => { b with part := { b.part with state := .lost }, lostRetry := some 12000 }).modCell .a 3
      fun c => { c with role := .neighbour, key := cellKey }
    s.tryable .a 3 = true ∧ ((after (.lostRetry 0 .a) s).sub .a).state = .searching := by decide
theorem test_listen_end :
    let s := (camped.modSbc .a fun b => { b with part := { b.part with listenEnd := some 11 } }).modCtx 0 fun c =>
      { c with continuous := true }
    s.working = true ∧ s.marksOk = true ∧ (s.sub .a).listenEnd = some 11 ∧ s.servingReached .a (11 + 1) = true ∧
      ((after (.listenPeriodEnd 0 .a) s).sub .a).listenEnd = none := by decide

/-! ### Calls, handovers and texts -/

theorem test_ringing :
    let s := (withCall .ringing camped).modCall 0 fun c => { c with ring := some 12000 }
    s.working = true ∧ s.marksOk = true ∧ (s.call 0).part.state = .ringing ∧ (s.call 0).ring = some 12000 ∧
      ((after (.ringingExpiry 0 0) s).call 0).part.cause = .notAnswered := by decide
/-- A call of A without an answer: the event that ends its access, and a release of it, is due; a disable is held or not. -/
def unanswered (disabled : Bool) : State :=
  ((inCall .connected .watch).modCall 0 fun c =>
    { c with access := some { dial := true, attempts := 4, next := .none, first := some 65528 },
             release := some { sends := 3, next := .none, first := some 65528 } }).modSbc .a fun b =>
    { b with disableHeld := disabled }

theorem test_call_timers_are_due (d : Bool) :
    let s := unanswered d
    s.working = true ∧ s.marksOk = true ∧ s.serviceOk = true ∧ s.holding 0 = true ∧
      s.servingReached (s.call 0).part.owner (65528 + 20) = true ∧ (s.sbc.get (s.call 0).part.owner).disableHeld = d := by
  cases d <;> decide
theorem test_access_timer :
    ((after (.accessTimerExpiry 0 0) (unanswered false)).call 0).part.cause = .noResponse ∧
      ((after (.accessTimerExpiry 0 0) (unanswered false)).sub .a).state = .camped := by decide
theorem test_access_timer_disabled :
    ((after (.accessTimerExpiry 0 0) (unanswered true)).call 0).part.cause = .noResponse ∧
      ((after (.accessTimerExpiry 0 0) (unanswered true)).sub .a).state = .off := by decide
theorem test_release_timer :
    ((after (.releaseTimerExpiry 0 0) (unanswered false)).call 0).part.cause = .localRelease ∧
      ((after (.releaseTimerExpiry 0 0) (unanswered false)).sub .a).state = .camped := by decide
theorem test_release_timer_disabled :
    ((after (.releaseTimerExpiry 0 0) (unanswered true)).call 0).part.cause = .localRelease ∧
      ((after (.releaseTimerExpiry 0 0) (unanswered true)).sub .a).state = .off := by decide
theorem test_dial :
    camped.callSub 0 = some .a ∧ (camped.call 0).part.state = .free ∧ camped.anyHolding = false ∧
      (camped.sub .a).state = .camped ∧ (camped.sbc.get .a).disableHeld = false ∧
      ((camped.takeDial 0 1).call 0).part.state = .dialling := by decide
theorem test_dial_busy :
    let s := inCall .connected .watch
    s.callSub 1 = some .a ∧ (s.call 1).part.state = .free ∧ s.anyHolding = true ∧
      ((s.takeDial 1 1).call 1).part.result = .busyRadio := by decide

/-- Voice frame 11 of call 0 is offered, its down slot predicted to end at 13,500; its RX-VOICE is STARTED. -/
def awaiting (o : Option (DownOutcome × List Byte)) : State :=
  withPlan [heard .rxVoice .block] ((inCall .connected .watch).modCall 0 fun c =>
    { c with pends := [{ frame := 11, ctx := 0, alloc := 0, slot := 1, planned := 13500, epoch := 0, outcome := o }] })

theorem test_release_writes_its_frame_stolen :
    let t := after (.blockReport 0 1 (some (.control 0 (.release 9 16))) 90) (awaiting none)
    (t.call 0).part.state = .ended ∧ (t.call 0).part.cause = .remoteRelease ∧ ((t.call 0).cells[cellIndex 11]).frame = 11 ∧
      ((t.call 0).cells[cellIndex 11]).outcome = .stolen := by decide
theorem test_stop_writes_no_later_frame :
    let t := after (.stop 0) (awaiting (some (.stolen, [])))
    (t.call 0).part.state = .ended ∧ ((t.call 0).cells[cellIndex 11]).outcome = .none := by decide

/-- Call 0 is DIALLING, the RX-CONTROL of slot 1 of frame 11 STARTED. -/
def dialling : State := withPlan [heard .rxControl .block] (withCall .dialling (inCall .connected .watch))

theorem test_assign_starts_at_the_predicted_slot_end :
    let t := after (.blockReport 0 1 (some (.control 0 (.assign 9 2 5 13))) 90) dialling
    (t.call 0).part.state = .active ∧ (t.call 0).part.startTime = 13500 := by decide
theorem test_assign_starts_at_the_captured_slot_end :
    let s := dialling.modCtx 0 fun c => c.track 11 4
    (s.ctx 0).anchorTime = 11002 ∧
      ((after (.blockReport 0 1 (some (.control 0 (.assign 9 2 5 13))) 90) s).call 0).part.startTime = 13504 := by decide

/-- The machine of A has reported neighbour 1, unheard. -/
def reported (sends : Nat) : State :=
  (inCall .connected .reported).modMachine .a fun m =>
    { m with candidate := some (⟨6, 8⟩, 1), sends := sends, expiry := some 12,
             latest := some { index := 1, key := ⟨6, 8⟩, difference := 9, level := 80 } }

theorem test_report_repeat :
    (reported 1).working = true ∧ (reported 1).marksOk = true ∧ ((reported 1).machine .a).expiry = some 12 ∧
      (reported 1).servingReached .a 12 = true ∧ ((reported 1).machine .a).stillTriggers = true ∧
      (reported 1).mayReport .a = true ∧ ((after (.reportTimerExpiry 0 .a) (reported 1)).machine .a).sends = 2 := by decide
theorem test_report_repeat_at_event :
    (reported 1).tmu.deferred = [] ∧ (reported 1).dueOffer 0 = some 12 ∧ (reported 1).servingCtx .a = some 0 ∧
      ((reported 1).ctx 0).staged = none ∧ atOrAhead 12 12 = true ∧ ((reported 1).machine .a).heard = false ∧
      ((after (.planningEvent 0 0) (reported 1)).machine .a).expiry = some 32 ∧
      ((after (.planningEvent 0 0) (reported 1)).rpl.plan.any fun o => o.kind == .txStolen && o.frame == 12) = true := by
  decide
theorem test_report_gives_up :
    3 ≤ ((reported 3).machine .a).sends ∧ ((reported 3).machine .a).candidate = some (⟨6, 8⟩, 1) ∧
      ((after (.reportTimerExpiry 0 .a) (reported 3)).machine .a).state = .watch := by decide
theorem test_report_gives_up_its_own_record :
    let s := ((reported 3).modCell .a 0 fun c => { c with key := ⟨6, 8⟩ }).modCell .a 1 fun c =>
      { c with role := .target, key := ⟨6, 8⟩ }
    let t := after (.reportTimerExpiry 0 .a) s
    (t.cell .a 0).role = .serving ∧ (t.cell .a 1).role = .neighbour ∧ (t.cell .a 1).quietUntil = 2012000 := by decide
/-- A voice frame 11 of call 0, offered before LEAVE, whose uplink was LENT. -/
def lentFrame (s : State) : State :=
  s.modCall 0 fun c =>
    { c with part := { c.part with status := c.part.status.set 3 { frame := 11, outcome := .lent } },
             pends := [{ frame := 11, ctx := 0, alloc := 0, slot := 1, planned := 13500, epoch := 0, outcome := none }] }

theorem test_leave_suspends :
    let s := lentFrame ((inCall .moving .leave).modMachine .a fun m =>
      { m with oldCtx := some 0, orderFrame := some 10, order := some { key := ⟨6, 8⟩, down := 2, up := 5, offset := 0 } })
    (s.ctx 0).startOf (10 + 1) ≤ s.now ∧ ahead 11 10 = true ∧ ((s.call 0).part.status[cellIndex 11]).frame = 11 ∧
      (((after (.leave 0 .a) s).call 0).part.status[cellIndex 11]).outcome = .suspended ∧
      ((after (.leave 0 .a) s).call 0).part.ups.suspended = 1 := by decide
theorem test_leave :
    let s := (inCall .moving .leave).modMachine .a fun m =>
      { m with oldCtx := some 0, orderFrame := some 9, order := some { key := ⟨6, 8⟩, down := 2, up := 5, offset := 0 } }
    s.working = true ∧ s.marksOk = true ∧ s.callOf .a = some 0 ∧ (s.ctx 0).startOf (9 + 1) ≤ s.now ∧
      s.ctxWith ⟨6, 8⟩ = none ∧ s.freeIndex.isSome = true ∧ ((after (.leave 0 .a) s).machine .a).state = .acquire := by decide
theorem test_arrive_timeout :
    let s := ((inCall .moving .arrive).modMachine .a fun m => { m with lock := some 4, leaveTime := 5000 }).modCtx 1 fun _ =>
      { ctx0 with users := [{ role := .target, sub := .a, deadline := none }], key := ⟨6, 8⟩ }
    s.ctxOf .target .a = some 1 ∧ (s.ctx 1).startOf (4 + 6) ≤ s.now ∧ s.now < (s.machine .a).leaveTime + 200000 ∧
      ((after (.arriveTimeout 0 .a) s).machine .a).state = .reverting := by decide
theorem test_target_user :
    let s := (inCall .moving .arrive).modCtx 1 fun _ =>
      { ctx0 with users := [{ role := .target, sub := .a, deadline := none }], key := ⟨6, 8⟩ }
    s.oneCallOk = true ∧ s.serviceOk = true ∧ s.targetOk = true ∧
      ({ s with exm := { s.exm with run := .stopped } } : State).targetOk = false := by decide
theorem test_arrivals : arrivalsAt 7415 7416 = 0 ∧ arrivalsAt 7415 7417 = 1 ∧ arrivalsAt 7415 7418 = 2 ∧
    arrivalsAt 7415 7420 = 4 := by decide

/-! ### Measurements, probes and reselections -/

/-- A is CONNECTED with slots 1 and 4, with a probe of neighbour 1 pending and neighbour 2 beside it. -/
def probing : State :=
  ((inCall .connected .watch).modCell .a 1 fun c => { c with role := .neighbour, key := ⟨6, 8⟩, probe := some 1 }).modCell .a 2
    fun c => { c with role := .neighbour, key := ⟨9, 8⟩ }

theorem test_one_measure_a_frame :
    ((after (.planningEvent 0 0) probing).rpl.plan.filterMap fun o =>
      match o.content with | .level k p => some (o.slot, k.channel, p) | _ => none) = [(2, 6, some 1), (3, 9, none)] := by
  decide
theorem test_no_second_measure_after_revocation :
    let s := ((after (.planningEvent 0 0) probing).modCtx 0 fun c => { c with lastPlanned := some 11 }).modCell .a 1 fun c =>
      { c with probe := none }
    ((after (.planningEvent 0 0) { s with rpl := { s.rpl with plan := [] } }).rpl.plan.any fun o => o.kind == .measure) = false ∧
      s.measuredIn .a 0 12 = [2, 1] := by decide
theorem test_probe_back :
    ({ CellRec.reset with probe := some 4 }.probePost 0).probe = some 0 ∧ (CellRec.reset.probePost 0).probe = none := by decide

/-- A holds a reselection to guest 16. -/
def reselecting : State :=
  (camped.modCell .a 16 fun c => { c with role := .neighbour, key := ⟨6, 8⟩ }).modMbu .a fun m =>
    { m with inHand := some (⟨6, 8⟩, 16) }

theorem test_candidate_folded :
    let s := withScan 4 (after (.hostMemoryWrite 0 0x211 15 0x00060008) (after (.hostMemoryWrite 0 0x210 15 1)
      (after (.hostMemoryWrite 0 0x201 15 0x00050007) (after (.hostMemoryWrite 0 0x200 15 1) reselecting))))
    ((after (.cellsScanTake 0) s).mbu.get .a).inHand = some (⟨6, 8⟩, 1) := by decide
theorem test_candidate_retaken :
    let s := withScan 4 (after (.hostMemoryWrite 0 0x201 15 0x00090009) (after (.hostMemoryWrite 0 0x200 15 1)
      (reselecting.modCell .a 17 fun c => { c with role := .neighbour, key := ⟨1, 1⟩, count := 1 })))
    ((after (.cellsScanTake 0) s).mbu.get .a).inHand = none ∧
      ((after (.cellsScanTake 0) s).cell .a 16).role = .serving := by decide
theorem test_a_target_that_moves_raises_subs :
    let s := camped.modCell .a 1 fun c => { c with role := .target, key := ⟨6, 8⟩ }
    ((s.moveToGuest .a 1).cell .a 16).role = .target ∧ (s.moveToGuest .a 1).exm.attn &&& areaMask .subs ≠ 0 := by decide
theorem test_a_target_that_folds_raises_subs :
    let s := (camped.modCell .a 16 fun c => { c with role := .target, key := ⟨6, 8⟩ }).modCell .a 2 fun c =>
      { c with role := .neighbour, key := ⟨6, 8⟩ }
    ((s.foldGuest .a 16).cell .a 2).role = .target ∧ (s.foldGuest .a 16).exm.attn &&& areaMask .subs ≠ 0 := by decide
theorem test_decline_goes_with_the_cell :
    ((camped.setDecline .a (some 3)).enterSearching .a .cellLost).clu.decline.get .a = none := by decide

theorem test_ack_window :
    let s := (withHead (inCall .connected .watch)).modSide .a fun d =>
      { d with flight := some { handle := 9, frame := 5, sent := true } }
    s.working = true ∧ s.marksOk = true ∧ s.head .a = some 0 ∧ s.servingReached .a (5 + 6) = true ∧
      (s.slot 0).withdraw = false ∧ ((after (.ackWindowClose 0 .a) s).side .a).plan = .exhausted := by decide
theorem test_ack_window_withdraw :
    let s := ((withHead (inCall .connected .watch)).modSide .a fun d =>
      { d with flight := some { handle := 9, frame := 5, sent := true } }).modSlot 0 fun o => { o with withdraw := true }
    (s.slot 0).withdraw = true ∧ ((after (.ackWindowClose 0 .a) s).slot 0).state = .withdrawn := by decide
theorem test_ack_window_at_event :
    let s := ((withHead (inCall .connected .watch)).modSide .a fun d =>
      { d with flight := some { handle := 9, frame := 6, sent := true } }).modSlot 0 fun o => { o with attempts := 1 }
    s.working = true ∧ s.marksOk = true ∧ s.tmu.deferred = [] ∧ s.dueOffer 0 = some 12 ∧ s.servingCtx .a = some 0 ∧
      (s.ctx 0).staged = none ∧ s.head .a = some 0 ∧ atOrAhead 12 (6 + 6) = true ∧
      (((after (.planningEvent 0 0) s).side .a).flight.map Flight.frame) = some 12 ∧
      ((after (.planningEvent 0 0) s).slot 0).attempts = 2 := by decide
theorem test_no_ack :
    let s := (withHead (inCall .connected .watch)).modSide .a fun d => { d with plan := .exhausted }
    s.working = true ∧ s.marksOk = true ∧ s.head .a = some 0 ∧ (s.side .a).plan = .exhausted ∧
      ((after (.noAck 0 .a) s).slot 0).cause = .noAck := by decide
theorem test_restart_limit :
    let s := (withHead camped).modSlot 0 fun o => { o with restarts := 4 }
    4 ≤ (s.slot 0).restarts ∧ ((after (.restartLimit 0 .a) s).slot 0).cause = .restartLimit := by decide
theorem test_pause :
    let s := (withHead camped).modSide .a fun d => { d with pause := some 12000 }
    (s.side .a).pause = some 12000 ∧ ((after (.pauseExpiry 0 .a) s).slot 0).cause = .noService := by decide
theorem test_reassembly :
    let s := (running.modReasm 1 fun c => { c with state := .collecting, lastTime := 500 }).advance 2000000
    s.working = true ∧ s.marksOk = true ∧ (s.txu.reasm[1]).state ≠ .idle ∧ (s.txu.reasm[1]).lastTime + 2000000 ≤ s.now ∧
      (after (.reassemblyTimeout 0 1) s).txu.reasm[1] = Reasm.idle := by decide

/-! ### Power -/

theorem test_nap_end :
    let s : State := { withPlan [{ grantedSend with start := 12200 }] camped with pwc := { Pwc.reset with state := .nap } }
    s.working = true ∧ s.pwc.state = .nap ∧ s.nextPlan = some 12000 ∧ (after (.napEnd 0) s).pwc.state = .run := by decide
theorem test_slow_timer :
    asleep.pins.resetHeld = false ∧ asleep.pwc.target ≤ asleep.pwc.timer ∧ (after (.slowTimerExpiry 0) asleep).now = 512000 ∧
      ((after (.slowTimerExpiry 0) asleep).ctx 0).wakeMark = true := by decide
theorem test_waking_end :
    waking.pwc.wakeEnd ≤ waking.now ∧ waking.exm.heldStop = false ∧ (after (.wakingEnd 0) waking).pwc.state = .run := by decide
theorem test_a_failed_fourth_attempt_outlives_a_cell_change :
    let s := (withHead camped).modSide .a fun d => { d with plan := .exhausted, sentRef := true }
    ((s.textsBack .a true).side .a).plan = .exhausted ∧ ((s.textsBack .a true).slot 0).restarts = 0 ∧
      ((after (.noAck 0 .a) (s.textsBack .a true)).slot 0).cause = .noAck := by decide
theorem test_a_fourth_restart_waits_sending :
    let s := ((withHead camped).modSlot 0 fun o => { o with state := .paused, restarts := 3 }).modSide .a fun d =>
      { d with sentRef := true, pause := some 12000 }
    ((s.textsBack .a true).slot 0).state = .sending ∧ ((s.textsBack .a true).slot 0).restarts = 4 ∧
      ((s.textsBack .a true).side .a).pause = none ∧
      ((after (.restartLimit 0 .a) (s.textsBack .a true)).slot 0).cause = .restartLimit := by decide
theorem test_waking_end_nap :
    let s := { waking with pwc := { waking.pwc with permit := .full } }
    (after (.wakingEnd 0) s).nextPlan = some 18000 ∧ (after (.wakingEnd 0) s).pwc.state = .nap := by decide
theorem test_waking_end_sleep :
    let s := { running with pwc := { waking.pwc with permit := .full } }
    (after (.wakingEnd 0) s).nextPlan = none ∧ (after (.wakingEnd 0) s).pwc.state = .sleep := by decide
theorem test_waking_end_stop :
    let s : State := { waking with exm := { waking.exm with heldStop := true } }
    s.exm.heldStop = true ∧ (after (.wakingEnd 0) s).exm.run = .stopped := by decide
theorem test_drift_sample :
    let s : State := { running with pwc := { Pwc.reset with accum := 1279986, drift := 160 } }
    200000 ≤ s.pwc.accum ∧ (-40 : Int).natAbs ≤ 1000 ∧ (s.driftSample (-40)).pwc.drift = 35 := by decide

/-! ### Arbitration, levels and receipts -/

/-- A paging of A, class 3, and a class-2 occupancy of B that overlaps it. -/
def pagingA : Occ := { heard .paging .beacon with cls := 3 }
def voiceB : Occ := { heard .rxVoice .block with who := ⟨none, some { kind := .rxVoice, cls := 2, use := .call }⟩ }

theorem test_lending :
    pagingA.asksPaging .a = true ∧ voiceB.asks (otherSub .a) = true ∧ voiceB.asks .a = false ∧
      beats (fun _ => 2) pagingA voiceB = true ∧ beats (fun _ => 1) pagingA voiceB = false := by decide
theorem test_no_lending : lendingPair voiceB voiceB = none ∧ lendingPair pagingA voiceB = some .a := by decide
theorem test_filter : filtered { CellRec.reset with count := 1, level := 1440 } 2 80 = 1400 ∧
    filtered CellRec.reset 2 80 = 1280 ∧ filtered { CellRec.reset with count := 1, level := 1443 } 2 90 = 1443 := by decide
theorem test_receipt :
    let s := running.modReasm 0 fun c => { c with state := .deliveredUnacked, sub := .b, ref := 4 }
    (s.txu.reasm[0]).state = .deliveredUnacked ∧ (s.receiptOutcome .b 4 (some 0) .done).txu.reasm[0] = Reasm.idle := by decide
theorem test_free : ((withCall .ended camped).takeFree 0 2).clu.calls[0].part.state = .free ∧
    ((withCall .ringing camped).takeFree 0 2).clu.calls[0].part.result = .wrongState := by decide
theorem test_outbox_free : ((camped.modSlot 0 fun o => { o with state := .sent }).takeOutFree 0 2).txu.slots[0].state = .empty ∧
    (camped.takeOutFree 0 2).txu.slots[0].result = .wrongState := by decide

end Sys2Proof.Tests
end

section
/-! SUPPORT. What a BLOCK report of a call's down slot does (R11, R39, R48, R150): the occupancy it reaches, the downlink
outcome it makes known, and that the delivery of DONE which ends the occupancy leaves an outcome already known as it is. -/

namespace Sys2Proof.Machine

/-! ### The occupancy a report reaches (R48) -/

/-- The first STARTED occupancy of the handle is the one that hears the report, where its kind expects it in time. -/
theorem heardBy_of_first_started {s : State} {h : Handle} {expects : Kind → Bool} {o : Occ}
    (first : s.rpl.plan.find? (fun p => p.handle == h && p.started) = some o) (kind : expects o.kind = true)
    (inTime : (s.now : Int) ≤ o.stop + reportGrace) : s.heardBy h expects = some o := by
  obtain ⟨named, before, after, plan, others⟩ := List.find?_eq_some_iff_append.1 first
  refine List.find?_eq_some_iff_append.2 ⟨by simp [named, kind, inTime], before, after, plan, fun p hp => ?_⟩
  have other := others p hp
  rw [Bool.not_eq_true'] at other ⊢
  simp only [other, Bool.false_and]

/-- A BLOCK report that is heard is routed, and ends its occupancy DONE. -/
theorem execBlockReport_of_heard {s : State} {dt : Nat} {h : Handle} {o : Occ} (b : Option DownBlock) (level : Nat)
    (working : s.working = true) (heard : (s.advance dt).heardBy h hearsBlock = some o) :
    execBlockReport dt h b level s =
      .next ((s.advance dt).finish (((s.advance dt).routeBlock o b).concludeDone o.handle)) := by
  unfold execBlockReport State.report
  rw [block_of_due working (by rw [heard]; rfl), heard]

/-! ### The outcome made known (R11, R150) -/

/-- A block of a call's down slot that is no control block makes the frame's downlink outcome known, and does no more. -/
theorem routeBlock_of_downSlot {s : State} {o : Occ} {k : Fin 4} {b : Option DownBlock} (kind : o.kind = .rxVoice)
    (call : o.call = some k) (routed : s.routes o = true) (noControl : ∀ tag body, b ≠ some (.control tag body)) :
    s.routeBlock o b = s.downOutcome k o.frame (blockOutcome b).1 (blockOutcome b).2 := by
  unfold State.routeBlock
  rw [if_neg (by simp [routed]), kind, call]
  match b with
  | none => rfl
  | some (.voice _) => rfl
  | some (.control tag body) => exact absurd rfl (noControl tag body)

theorem pends_downOutcome (s : State) (k : Fin 4) (f : Frame) (d : DownOutcome) (payload : List Byte) :
    ((s.downOutcome k f d payload).call k).pends =
      (s.call k).pends.map fun p => if p.frame = f then { p with outcome := some (d, payload) } else p := by
  simp [State.downOutcome]

/-- The call's pending downlink of the frame, if there is one, has its outcome. -/
def State.downSettled (s : State) (k : Fin 4) (f : Frame) : Prop :=
  ∀ p ∈ (s.call k).pends, p.frame = f → p.outcome.isSome = true

theorem downSettled_downOutcome (s : State) (k : Fin 4) (f : Frame) (d : DownOutcome) (payload : List Byte) :
    (s.downOutcome k f d payload).downSettled k f := by
  intro p hp hf
  rw [pends_downOutcome] at hp
  obtain ⟨q, -, rfl⟩ := List.mem_map.1 hp
  by_cases named : q.frame = f
  · rw [if_pos named]
    rfl
  · rw [if_neg named] at hf
    contradiction

theorem State.downSettled.of_clu {s t : State} {k : Fin 4} {f : Frame} (h : s.downSettled k f) (same : t.clu = s.clu) :
    t.downSettled k f := by
  unfold State.downSettled State.call
  rw [same]
  exact h

/-! ### The end of the occupancy (R39, R49) -/

@[simp] theorem clu_lendOutcome (s : State) (x : Sub) (e : Ending) : (s.lendOutcome x e).clu = s.clu :=
  State.clu_subSet s x _
@[simp] theorem tmu_lendOutcome (s : State) (x : Sub) (e : Ending) : (s.lendOutcome x e).tmu = s.tmu :=
  State.tmu_subSet s x _
@[simp] theorem clu_windowMissed (s : State) (x : Sub) : (s.windowMissed x).clu = s.clu := by
  unfold State.windowMissed; split <;> simp
@[simp] theorem tmu_windowMissed (s : State) (x : Sub) : (s.windowMissed x).tmu = s.tmu := by
  unfold State.windowMissed; split <;> simp
@[simp] theorem clu_pagingOutcome (s : State) (x : Sub) (e : Ending) : (s.pagingOutcome x e).clu = s.clu := by
  cases e <;> simp [State.pagingOutcome]
@[simp] theorem tmu_pagingOutcome (s : State) (x : Sub) (e : Ending) : (s.pagingOutcome x e).tmu = s.tmu := by
  cases e <;> simp [State.pagingOutcome]

/-- The ending of an RX-VOICE is no outcome of a frame that has one (R150). -/
theorem callOutcome_of_settled {s : State} {o : Occ} {k : Fin 4} (e : Ending) (kind : o.kind = .rxVoice)
    (settled : s.downSettled k o.frame) : s.callOutcome k o e = s := by
  unfold State.callOutcome
  rw [kind]
  refine if_neg fun pending => ?_
  obtain ⟨p, hp, hn⟩ := List.any_eq_true.1 pending
  rw [Bool.and_eq_true, beq_iff_eq, Option.isNone_iff_eq_none] at hn
  obtain ⟨named, unknown⟩ := hn
  simpa [unknown] using settled p hp named

theorem deliverTo_of_settled {s : State} {o : Occ} {k : Fin 4} (e : Ending) (x : Sub) (kind : o.kind = .rxVoice)
    (call : o.call = some k) (settled : s.downSettled k o.frame) :
    (s.deliverTo o e x).clu = s.clu ∧ (s.deliverTo o e x).tmu = s.tmu := by
  unfold State.deliverTo
  split
  · exact ⟨rfl, rfl⟩
  · next w _ =>
    rw [call]
    dsimp only
    split
    · rw [callOutcome_of_settled e kind (settled.of_clu (clu_pagingOutcome s x e))]
      simp
    · rw [callOutcome_of_settled e kind settled]
      simp

/-- The outcome of an RX-VOICE changes neither the calls nor the timing contexts where the frame's downlink is settled. -/
theorem deliver_of_settled {s : State} {o : Occ} {k : Fin 4} (e : Ending) (kind : o.kind = .rxVoice)
    (call : o.call = some k) (settled : s.downSettled k o.frame) :
    (s.deliver o e).clu = s.clu ∧ (s.deliver o e).tmu = s.tmu := by
  obtain ⟨cluA, tmuA⟩ := deliverTo_of_settled e .a kind call settled
  obtain ⟨cluB, tmuB⟩ := deliverTo_of_settled e .b kind call (settled.of_clu cluA)
  exact ⟨cluB.trans cluA, tmuB.trans tmuA⟩

@[simp] theorem plan_linkUpd (s : State) (m n : Nat) : (s.linkUpd m n).rpl.plan = s.rpl.plan := by
  unfold State.linkUpd; split <;> rfl
theorem runSilent_linkUpd (s : State) (m n : Nat) : (s.linkUpd m n).rpl.runSilent = n := by
  unfold State.linkUpd
  split
  · next h => exact h.2.symm
  · rfl

theorem concludeDone_of_settled {s : State} {h : Handle} {o : Occ} {k : Fin 4}
    (first : s.rpl.plan.find? (fun p => p.handle == h && p.started) = some o) (kind : o.kind = .rxVoice)
    (call : o.call = some k) (settled : s.downSettled k o.frame) :
    (s.concludeDone h).clu = s.clu ∧ (s.concludeDone h).tmu = s.tmu := by
  unfold State.concludeDone State.conclude
  rw [plan_linkUpd, first]
  obtain ⟨clu, tmu⟩ := deliver_of_settled
    (s := (s.linkUpd s.rpl.totalSilent 0).dropOccs fun p => p.handle == h && p.started) .done kind call (settled.of_clu (by simp))
  exact ⟨clu.trans (by simp), tmu.trans (by simp)⟩

/-- An occupancy that ends DONE returns the consecutive SILENT count to 0 (R49). -/
theorem runSilent_concludeDone (s : State) (h : Handle) : (s.concludeDone h).rpl.runSilent = 0 := by
  have same : (s.concludeDone h).outer = (s.linkUpd s.rpl.totalSilent 0).outer := by
    unfold State.concludeDone State.conclude
    split
    · rfl
    · rw [outer_deliver, outer_dropOccs]
  exact (congrArg Outer.silent same).trans (runSilent_linkUpd s _ 0)

/-! ### The report as a whole -/

/-- A BLOCK report of a call's down slot, but for a control block, gives the frame the outcome of its block. -/
theorem blockReport_settles_downlink {s : State} {dt : Nat} {h : Handle} {o : Occ} {k : Fin 4} {b : Option DownBlock}
    (level : Nat) (working : (s.advance dt).working = true) (marks : (s.advance dt).marksOk = true)
    (first : (s.advance dt).rpl.plan.find? (fun p => p.handle == h && p.started) = some o) (kind : o.kind = .rxVoice)
    (call : o.call = some k) (inTime : ((s.advance dt).now : Int) ≤ o.stop + reportGrace)
    (routed : (s.advance dt).routes o = true) (noControl : ∀ tag body, b ≠ some (.control tag body)) :
    ∃ t, exec (.blockReport dt h b level) s = .next t ∧ t.rpl.runSilent = 0 ∧
      ∀ p ∈ ((s.advance dt).call k).pends, p.frame = o.frame →
        { p with outcome := some (blockOutcome b) } ∈ (t.call k).pends := by
  have heard := heardBy_of_first_started (expects := hearsBlock) first (by rw [kind]; rfl) inTime
  have runs := execBlockReport_of_heard b level (by simpa using working) heard
  generalize s.advance dt = u at *
  rw [routeBlock_of_downSlot kind call routed noControl] at runs
  have handle : o.handle = h := by
    have named := List.find?_some first
    rw [Bool.and_eq_true, beq_iff_eq] at named
    exact named.1
  obtain ⟨clu, tmu⟩ := concludeDone_of_settled (s := u.downOutcome k o.frame (blockOutcome b).1 (blockOutcome b).2)
    (h := o.handle) (handle ▸ first) kind call (downSettled_downOutcome u k o.frame _ _)
  have unfreed : u.tmu.freed = false := by
    simp only [State.marksOk, Bool.and_eq_true, Bool.not_eq_true'] at marks
    exact marks.1
  obtain ⟨v, q, fin, -⟩ := finish_frame u _ ((congrArg (·.freed) tmu).trans unfreed)
  refine ⟨_, runs, ?_, fun p hp hf => ?_⟩
  · rw [fin]
    exact runSilent_concludeDone _ _
  · have calls : (u.finish ((u.downOutcome k o.frame (blockOutcome b).1 (blockOutcome b).2).concludeDone o.handle)).clu =
        (u.downOutcome k o.frame (blockOutcome b).1 (blockOutcome b).2).clu := by rw [fin]; exact clu
    rw [State.call, calls, ← State.call, pends_downOutcome]
    exact List.mem_map.2 ⟨p, hp, if_pos hf⟩

end Sys2Proof.Machine

open Sys2Proof Sys2Proof.Machine

/-- Settles O33: a voice block of at most 40 bytes has the outcome RECEIVED with its payload, no block the outcome BAD. -/
theorem blockReportSettlesTheDownlink : Obligations.BlockReportSettlesTheDownlink := by
  rintro s _ dt h level o k rfl working marks first kind call inTime routed
  refine ⟨fun payload short => ?_, ?_⟩
  · have outcome : blockOutcome (some (.voice payload)) = (.received, payload) := if_pos short
    rw [← outcome]
    exact blockReport_settles_downlink level working marks first kind call inTime routed (by simp)
  · exact blockReport_settles_downlink level working marks first kind call inTime routed (by simp)
end

section
/-! SUPPORT. Why O9 fails: the end of WAKING does not ask that the part is RUNNING, and the statement has no premise that rules
out a STOPPED part in WAKING. -/

set_option maxRecDepth 20000

namespace Sys2Proof.Machine

/-- A STOPPED part whose WAKING is over, with A CAMPED and a DIAL for A posted in call context 0, its CALLS scan held. -/
def State.dialHeldWhileStopped : State :=
  { State.reset.modSbc .a fun b => { b with part := { b.part with state := .camped } } with
    exm := { Exm.reset with mem := [(0x1200, 1), (0x1202, 1)], scan := areaMask .calls }
    pwc := { Pwc.reset with state := .waking }
    pending := [.wakingEnd 0] }

/-- The state meets the premises, but no state the part can reach: its power state is not RUN though it is not RUNNING. -/
theorem dialHeldWhileStopped_premises :
    State.dialHeldWhileStopped.oneCallOk = true ∧ State.dialHeldWhileStopped.serviceOk = true ∧
      State.dialHeldWhileStopped.targetOk = true ∧ State.dialHeldWhileStopped.powerOk = false := by decide

/-- The end of WAKING takes the held DIAL, and leaves a radio-holding call in a part that is STOPPED. -/
theorem wakingEnd_dials_while_stopped :
    ∃ t, step State.dialHeldWhileStopped = .next t ∧ t.exm.run = .stopped ∧ t.holding 0 = true ∧ t.serviceOk = false :=
  ⟨_, rfl, by decide⟩

end Sys2Proof.Machine

open Sys2Proof Sys2Proof.Machine

/-- Refutes O9: WAKING_END in a STOPPED part takes a held DIAL, so that a call is radio-holding while the part is not RUNNING.
The second clause lacks the premise `powerOk`, which no state with a STOPPED part in WAKING meets. -/
theorem not_stepKeepsOneCall : ¬ Obligations.StepKeepsOneCall := by
  rintro ⟨-, keeps⟩
  obtain ⟨oneCall, service, target, -⟩ := dialHeldWhileStopped_premises
  obtain ⟨t, runs, -, -, broken⟩ := wakingEnd_dials_while_stopped
  have kept := (keeps _ t oneCall service target runs).1
  rw [broken] at kept
  contradiction

end

section
/-! SUPPORT. What a command of the blocks leaves of a timing context, and the commands of the clocks: the tick of an empty queue,
the entry to HOLDOVER, the end of a NAP and the slow timer's expiry (R17, R27, R30, R33, R172, R174, R175). -/

namespace Sys2Proof.Machine

/-! ### What follows a command of the blocks, context by context (R22, R30) -/

/-- The state once the deferred requests have been retried, where a context has gone FREE (R22). -/
def State.retried (s : State) : State := if s.tmu.freed then s.retry fun _ => true else s

theorem retried_of_unfreed {s : State} (h : s.tmu.freed = false) : s.retried = s := if_neg (by simp [h])

/-- After the retries, the contexts' activity, the power controller and the marks of the step alone can change. -/
theorem finish_eq (s0 s : State) :
    ∃ q, s0.finish s = ({ s.retried.refresh with pwc := q } : State).clearMarks := by
  unfold State.finish
  rw [← State.retried]
  dsimp only
  split
  · obtain ⟨q, decided, -⟩ := sleepDecision_frame s.retried.refresh
    exact ⟨q, by rw [decided]⟩
  · exact ⟨s.retried.refresh.pwc, rfl⟩

/-- Activity is two fields of a context: CONTINUOUS, and the first event still to be raised (R30, R31). -/
theorem withActivity_frame (s : State) (c : Ctx) : ∃ b e, s.withActivity c = { c with continuous := b, first := e } := by
  unfold State.withActivity
  split
  · split
    · exact ⟨c.continuous, c.first, rfl⟩
    · exact ⟨_, _, rfl⟩
  · exact ⟨_, _, rfl⟩

theorem ctx_refresh (s : State) (c : Fin 3) : s.refresh.ctx c = s.withActivity (s.ctx c) := by
  match c with
  | 0 => rfl
  | 1 => rfl
  | 2 => rfl

/-- After the retries a context keeps all but its activity. -/
theorem ctx_finish (s0 s : State) (c : Fin 3) :
    ∃ b e, (s0.finish s).ctx c = { s.retried.ctx c with continuous := b, first := e } := by
  obtain ⟨q, fin⟩ := finish_eq s0 s
  obtain ⟨b, e, active⟩ := withActivity_frame s.retried (s.retried.ctx c)
  refine ⟨b, e, ?_⟩
  rw [fin, ← active, ← ctx_refresh]
  rfl

theorem unfreed_of_marksOk {s : State} (h : s.marksOk = true) : s.tmu.freed = false ∧ s.rpl.left = false := by
  simpa [State.marksOk] using h

/-! ### The clocks (R17, R172, R174, R175) -/

theorem clockValue_of_lt {n : Nat} (h : n < 2 ^ 48) : clockValue n = n := if_pos h

/-- A step with no command waiting is a tick. -/
theorem step_of_empty {s : State} (h : s.pending = []) : step s = .next s.tick := by
  unfold step
  rw [h]

/-- A context as the entry to WAKING leaves it: one that follows a cell has its wake mark set (R33). -/
def Ctx.woken (c : Ctx) : Ctx := { c with wakeMark := c.wakeMark || c.follows }

theorem woken_woken (c : Ctx) : c.woken.woken = c.woken :=
  congrArg (fun b => { c with wakeMark := b })
    (by rw [Bool.or_assoc, Bool.or_self] : ((c.wakeMark || c.follows) || c.follows) = (c.wakeMark || c.follows))

/-- One context's turn in the entry to WAKING. -/
theorem wakeMark_turn (v : Vector Ctx 3) (c : Fin 3) :
    (if (v[c]).follows then v.set c { v[c] with wakeMark := true } else v) = v.set c (v[c]).woken := by
  unfold Ctx.woken
  split
  · next h => rw [h, Bool.or_true]
  · next h =>
    rw [Bool.eq_false_of_not_eq_true h, Bool.or_false]
    exact (Vector.set_getElem_self c.isLt).symm

theorem mem_allCtx (c : Fin 3) : c ∈ allCtx := by revert c; decide

theorem ctx_enterWaking (s : State) (n : Nat) (c : Fin 3) : (s.enterWaking n).ctx c = (s.ctx c).woken := by
  have turns : ∀ (l : List (Fin 3)) (v : Vector Ctx 3),
      (l.foldl (fun v (c : Fin 3) => if (v[c]).follows then v.set c { v[c] with wakeMark := true } else v) v)[c] =
        if c ∈ l then (v[c]).woken else v[c] := by
    intro l
    induction l with
    | nil => exact fun v => rfl
    | cons d l ih =>
      intro v
      rw [List.foldl_cons, ih, wakeMark_turn]
      by_cases same : c = d
      · subst same
        simp [woken_woken]
      · have other : (v.set d (v[d]).woken)[c] = v[c] :=
          Vector.getElem_set_ne _ _ fun e => same (Fin.ext e.symm)
        rw [other]
        simp [same]
  exact (turns allCtx s.tmu.ctx).trans (if_pos (mem_allCtx c))

/-- HOLDOVER_ENTRY where it is due. -/
theorem execHoldoverEntry_of_due {s : State} {dt : Nat} {c : Fin 3} (working : s.working = true)
    (due : (s.advance dt).holdoverOut c = true) :
    execHoldoverEntry dt c s = .next ((s.advance dt).finish ((s.advance dt).modCtx c fun t =>
      { t with state := .holdover, halfWindow := holdoverHalf })) :=
  block_of_due (g := fun s => s.holdoverOut c) working due

/-- NAP_END where the next plan time has come. -/
theorem execNapEnd_of_due {s : State} {dt : Nat} {p : Int} (working : (s.advance dt).working = true)
    (napping : (s.advance dt).pwc.state = .nap) (planned : (s.advance dt).nextPlan = some p)
    (come : p ≤ ((s.advance dt).now : Int)) : execNapEnd dt s = .next ((s.advance dt).setPower .run) :=
  if_pos (by dsimp only; rw [working, napping, planned]; simpa using come) |> congrArg Host.Outcome.next

/-- SLOW_TIMER_EXPIRY where the timer has reached its target. -/
theorem execSlowTimerExpiry_of_due {s : State} {dt : Nat} (alive : (s.advance dt).pins.resetHeld = false)
    (asleep : (s.advance dt).pwc.state = .sleep) (expired : (s.advance dt).pwc.target ≤ (s.advance dt).pwc.timer) :
    execSlowTimerExpiry dt s = .next ((s.advance dt).enterWaking (s.advance dt).pwc.target) := by
  rw [pins_advance] at alive
  rw [power_advance] at asleep
  exact if_pos (by simp [State.alive, alive, asleep, expired]) |> congrArg Host.Outcome.next

end Sys2Proof.Machine

open Sys2Proof Sys2Proof.Machine

/-- Settles O2, by the cases of the tick. -/
theorem emptyQueueTicks : Obligations.EmptyQueueTicks := by
  intro s empty
  rw [step_of_empty empty]
  unfold State.tick cyclesPerMicro
  refine ⟨fun held => ?_, fun free asleep => ?_, fun free awake within => ?_, fun free awake whole inRange => ?_⟩
  · rw [if_pos held]
  · rw [if_neg (by simp [free]), if_pos asleep]
    rfl
  · rw [if_neg (by simp [free]), if_neg awake, if_pos (by omega)]
  · rw [if_neg (by simp [free]), if_neg awake, if_neg (by omega), clockValue_of_lt inRange]

/-- Settles O39: the entry to HOLDOVER writes the state and the half-window of the context, and what follows it the activity. -/
theorem fourMissesGiveHoldover : Obligations.FourMissesGiveHoldover := by
  rintro s u dt c rfl working marks locked missed
  obtain ⟨unfreed, unleft⟩ := unfreed_of_marksOk marks
  have due : (s.advance dt).holdoverOut c = true := by
    simp [State.holdoverOut, locked, holdoverMisses, missed]
  let t := (s.advance dt).modCtx c fun t => { t with state := .holdover, halfWindow := holdoverHalf }
  have stays : t.retried = t := retried_of_unfreed unfreed
  refine ⟨_, execHoldoverEntry_of_due ((working_advance dt s).symm.trans working) due, ?_⟩
  obtain ⟨b, e, held⟩ := ctx_finish (s.advance dt) t c
  obtain ⟨q, fin⟩ := finish_eq (s.advance dt) t
  rw [stays] at held fin
  rw [State.ctx_modCtx_same] at held
  refine ⟨by rw [held], by rw [held]; rfl, by rw [held], by rw [held], by rw [held], by rw [held], ?_, ?_⟩
  · rw [fin]
    exact congrArg (fun l => { (s.advance dt).rpl with left := l }) unleft.symm
  · rw [fin]
    rfl

/-- Settles O54: the end of a NAP is one update of the POWER record, and the slow timer's expiry the entry to WAKING. -/
theorem napAndSleepEnd : Obligations.NapAndSleepEnd := by
  refine ⟨?_, ?_⟩
  · rintro s u dt p rfl working napping planned come
    refine (execNapEnd_of_due working napping planned come).trans ?_
    unfold State.setPower
    rw [if_neg (by rw [napping]; decide)]
    rfl
  · rintro s u dt n e rfl alive asleep rfl expired rfl inRange
    have now : ((s.advance dt).enterWaking (s.advance dt).pwc.target).now = (s.advance dt).now +
        elapsedTime (s.advance dt).pwc.target (s.advance dt).pwc.usedDrift := clockValue_of_lt inRange
    exact ⟨_, execSlowTimerExpiry_of_due alive asleep expired, rfl, now, rfl, rfl, rfl, rfl,
      fun c => congrArg Ctx.wakeMark (ctx_enterWaking _ _ c), rfl, rfl⟩
end

section
/-! SUPPORT. Predicates that outcomes cannot disturb. What the planner tells its requesters touches the texts, the calls, the
plan list, two counts of a subscription record and the PENDING bits. A predicate closed under those few writes is kept by every
operation that is made of them, so that each operation is gone through once, whatever is to be known after it. -/

namespace Sys2Proof.Machine

theorem keeps_foldl {α : Type} {P : State → Prop} {f : State → α → State} (l : List α)
    (turn : ∀ a ∈ l, ∀ s, P s → P (f s a)) {s : State} (h : P s) : P (l.foldl f s) :=
  List.foldlRecOn l f h fun s hs a ha => turn a ha s hs

theorem keeps_foldl_pair {α β : Type} {P : State → Prop} {f : State × β → α → State × β} (l : List α)
    (turn : ∀ a ∈ l, ∀ p : State × β, P p.1 → P (f p a).1) {s : State} {b : β} (h : P s) : P (l.foldl f (s, b)).1 :=
  List.foldlRecOn (motive := fun p => P p.1) l f h fun p hp a ha => turn a ha p hp

theorem keeps_ite {P : State → Prop} {c : Prop} [Decidable c] {s t : State} (hs : P s) (ht : P t) :
    P (if c then s else t) := by
  split
  · exact hs
  · exact ht

theorem keeps_ite_fst {β : Type} {P : State → Prop} {c : Prop} [Decidable c] {p q : State × β} (hp : P p.1) (hq : P q.1) :
    P (if c then p else q).1 := by
  split
  · exact hp
  · exact hq

/-- The list `m` holds no STARTED occupancy of a handle that has none in `l`: between the two nothing was issued. -/
def StartsNone (l m : List Occ) : Prop :=
  ∀ p ∈ m, p.started = true → ∃ q ∈ l, q.started = true ∧ q.handle = p.handle

theorem StartsNone.of_subset {l m : List Occ} (h : ∀ p ∈ m, p.started = true → p ∈ l) : StartsNone l m :=
  fun p hp started => ⟨p, h p hp started, started, rfl⟩

/-- An update of a subscription record that writes its lending count and its missed windows alone (R45, R68). -/
def CountsOnly (f : SubRec → SubRec) : Prop := ∀ r, f r = { r with lending := (f r).lending, missed := (f r).missed }

/-- The predicate is closed under what an outcome writes. -/
structure Steady (P : State → Prop) : Prop where
  txu    : ∀ {s : State} {v : Txu}, P s → P { s with txu := v }
  clu    : ∀ {s : State} {v : Clu}, P s → P { s with clu := v }
  raise  : ∀ {s : State} {a : Area}, P s → P (s.raise a)
  counts : ∀ {s : State} {x : Sub} {f : SubRec → SubRec}, CountsOnly f → P s → P (s.subUpd x f)
  rpl    : ∀ {s : State} {r : Rpl}, StartsNone s.rpl.plan r.plan → P s → P { s with rpl := r }

namespace Steady

variable {P : State → Prop} (S : Steady P) {s : State}
include S

/-! ### Updates -/

theorem raiseIf (b : Bool) {a : Area} (h : P s) : P (s.raiseIf b a) := by
  cases b
  · exact h
  · exact S.raise h

theorem modSide {x : Sub} {f : SendSide → SendSide} (h : P s) : P (s.modSide x f) := S.txu h
theorem modReasm {r : Fin 4} {f : Reasm → Reasm} (h : P s) : P (s.modReasm r f) := S.txu h
theorem slotUpd {i : Fin 8} {b : Bool} {f : OutSlot → OutSlot} (h : P s) : P (s.slotUpd i b f) := S.raiseIf b (S.txu h)
theorem modCall {k : Fin 4} {f : Call → Call} (h : P s) : P (s.modCall k f) := S.clu h
theorem callUpd {k : Fin 4} {f : CallRec → CallRec} (h : P s) : P (s.callUpd k f) := S.raise (S.clu h)
theorem callStatusUpd {k : Fin 4} {f : CallRec → CallRec} (h : P s) : P (s.callStatusUpd k f) := S.raiseIf _ (S.clu h)
theorem takeRef {x : Sub} (h : P s) : P (s.takeRef x) := S.clu h
theorem setDecline {x : Sub} {r : Option Ref} (h : P s) : P (s.setDecline x r) := S.clu h

theorem countsSet {x : Sub} {f : SubRec → SubRec} (only : CountsOnly f) (h : P s) : P (s.subSet x f) := by
  unfold State.subSet
  split
  · exact h
  · exact S.counts only h

theorem linkUpd {m n : Nat} (h : P s) : P (s.linkUpd m n) := by
  unfold State.linkUpd
  split
  · exact h
  · exact S.raise (S.rpl (StartsNone.of_subset fun _ hp _ => hp) h)

/-! ### The plan list (R38, R39) -/

theorem withdraw {x : Sub} {p : Occ → Bool} (h : P s) : P (s.withdraw x p) := by
  refine S.rpl (fun o' ho' started => ?_) h
  obtain ⟨o, ho, left⟩ := List.mem_filterMap.1 ho'
  have same : o'.started = o.started ∧ o'.handle = o.handle := by
    dsimp only at left
    split at left
    · split at left
      · contradiction
      · cases left
        unfold Occ.without
        dsimp only
        split
        · split <;> exact ⟨rfl, rfl⟩
        · exact ⟨rfl, rfl⟩
    · cases left
      exact ⟨rfl, rfl⟩
  exact ⟨o, ho, same.1 ▸ started, same.2.symm⟩

theorem withdrawSeek {x : Sub} {c : Fin 3} (h : P s) : P (s.withdrawSeek x c) := S.withdraw h

theorem dropOccs {p : Occ → Bool} (h : P s) : P (s.dropOccs p) :=
  S.rpl (StartsNone.of_subset fun _ hp _ => (List.mem_filter.1 hp).1) h

/-! ### Texts (chapter 9) -/

theorem promote {x : Sub} (h : P s) : P (s.promote x) := by
  unfold State.promote
  split
  · exact h
  · split
    · exact S.modSide (S.slotUpd h)
    · exact h

theorem leaveQueue {x : Sub} {i : Fin 8} (h : P s) : P (s.leaveQueue x i) := by
  unfold State.leaveQueue
  split
  · exact S.promote (S.modSide h)
  · exact S.modSide h

theorem finishHead {x : Sub} {st : OutState} {f : OutSlot → OutSlot} (h : P s) : P (s.finishHead x st f) := by
  unfold State.finishHead
  split
  · exact h
  · exact S.leaveQueue (S.slotUpd h)

theorem abandon {x : Sub} (h : P s) : P (s.abandon x) := by
  unfold State.abandon
  split
  · dsimp only
    split
    · exact S.finishHead (S.modSide (S.withdraw h))
    · exact S.slotUpd (S.modSide (S.withdraw h))
  · exact h

theorem attemptFailed {x : Sub} {e : Frame} (h : P s) : P (s.attemptFailed x e) := by
  unfold State.attemptFailed
  split
  · exact h
  · dsimp only
    split
    · exact S.finishHead (S.modSide h)
    · exact S.modSide (S.slotUpd (S.modSide h))

theorem segmentOutcome {x : Sub} {hd : Handle} {ref : Ref} {e : Ending} (h : P s) : P (s.segmentOutcome x hd ref e) := by
  unfold State.segmentOutcome
  dsimp only
  split
  · exact S.modSide h
  · refine keeps_ite ?_ h
    split
    · exact keeps_ite (S.modSide (S.abandon h)) (S.abandon h)
    · exact S.abandon h
  · refine keeps_ite ?_ h
    split
    · exact S.attemptFailed h
    · exact h

theorem receiptOutcome {x : Sub} {ref : Ref} {w : Option (Fin 4)} {e : Ending} (h : P s) :
    P (s.receiptOutcome x ref w e) := by
  unfold State.receiptOutcome
  split
  · dsimp only
    split
    · exact S.modReasm h
    · exact h
  · exact h

theorem takeAck {x : Sub} {f : Frame} {ref : Ref} {i : Nat} (h : P s) : P (s.takeAck x f ref i) := by
  unfold State.takeAck
  split
  · dsimp only
    split
    · split
      · exact S.finishHead (S.modSide h)
      · split
        · exact S.finishHead (S.modSide h)
        · exact S.modSide (S.slotUpd (S.modSide h))
    · exact h
  · exact h

theorem pauseHead {x : Sub} (h : P s) : P (s.pauseHead x) := by
  unfold State.pauseHead
  split
  · exact h
  · split
    · exact S.modSide (S.slotUpd h)
    · exact h

theorem keepOut {x : Sub} (h : P s) : P (s.keepOut x) := by
  unfold State.keepOut
  split
  · exact h
  · dsimp only
    split
    · exact S.modSide (S.slotUpd h)
    · exact S.modSide h

theorem resumeHead {x : Sub} (h : P s) : P (s.resumeHead x) := by
  unfold State.resumeHead
  split
  · exact h
  · exact S.modSide (S.slotUpd h)

theorem restartHead {x : Sub} (h : P s) : P (s.restartHead x) := by
  unfold State.restartHead
  split
  · exact h
  · dsimp only
    split
    · exact S.modSide (S.slotUpd h)
    · exact S.modSide (S.slotUpd h)

theorem textsBack {x : Sub} {b : Bool} (h : P s) : P (s.textsBack x b) := by
  unfold State.textsBack
  split
  · exact S.keepOut h
  · split
    · exact S.restartHead h
    · exact S.resumeHead h

theorem textsLost {x : Sub} (h : P s) : P (s.textsLost x) := S.abandon (S.pauseHead h)

theorem failQueue {x : Sub} {c : FailCause} (h : P s) : P (s.failQueue x c) := by
  unfold State.failQueue
  exact S.modSide (keeps_foldl _ (fun _ _ t ht => S.slotUpd (s := t) ht) (S.withdraw h))

theorem dropReasm {p : Reasm → Bool} (h : P s) : P (s.dropReasm p) := by
  refine keeps_foldl _ (fun r _ t ht => ?_) h
  split
  · exact S.modReasm ht
  · exact ht

theorem dropReceipts {x : Sub} (h : P s) : P (s.dropReceipts x) := S.txu h

/-! ### Voice (chapter 8) -/

theorem upFinal {k : Fin 4} {f : Frame} {o : UpOutcome} (h : P s) : P (s.upFinal k f o) := by
  unfold State.upFinal
  split
  · exact S.callStatusUpd h
  · exact h

theorem downOutcome {k : Fin 4} {f : Frame} {o : DownOutcome} {b : List Byte} (h : P s) : P (s.downOutcome k f o b) :=
  S.modCall h

theorem downWrite {k : Fin 4} {p : DownPending} (h : P s) : P (s.downWrite k p) := by
  unfold State.downWrite
  split
  · exact h
  · exact S.raise (S.callUpd (S.modCall h))

theorem flush {k : Fin 4} {p : DownPending → Bool} (h : P s) : P (s.flush k p) :=
  keeps_foldl _ (fun _ _ _ => S.downWrite) h

theorem dropUplinks {k : Fin 4} (h : P s) : P (s.dropUplinks k) := keeps_foldl _ (fun _ _ _ => S.upFinal) h

theorem expectDown {k : Fin 4} {c : Fin 3} {f : Frame} {o : Option DownOutcome} (h : P s) : P (s.expectDown k c f o) := by
  unfold State.expectDown
  exact S.modCall h

/-! ### Outcomes (R39, R45, R68) -/

theorem lendOutcome {x : Sub} {e : Ending} (h : P s) : P (s.lendOutcome x e) := S.countsSet (fun _ => rfl) h

theorem windowMissed {x : Sub} (h : P s) : P (s.windowMissed x) := by
  unfold State.windowMissed
  split
  · exact S.countsSet (fun _ => rfl) h
  · exact h

theorem pagingOutcome {x : Sub} {e : Ending} (h : P s) : P (s.pagingOutcome x e) := by
  cases e with
  | silent | aborted => exact S.windowMissed (S.lendOutcome h)
  | done | denied | missed => exact S.lendOutcome h

theorem callOutcome {k : Fin 4} {o : Occ} {e : Ending} (h : P s) : P (s.callOutcome k o e) := by
  unfold State.callOutcome
  split
  · split
    · exact S.downOutcome h
    · exact h
  · exact S.upFinal h
  · exact S.upFinal h
  · exact h

theorem deliverTo {o : Occ} {e : Ending} {x : Sub} (h : P s) : P (s.deliverTo o e x) := by
  unfold State.deliverTo
  split
  · exact h
  · next w _ =>
    have paged : P (if w.kind = .paging then s.pagingOutcome x e else s) := by
      split
      · exact S.pagingOutcome h
      · exact h
    dsimp only
    generalize (if w.kind = .paging then s.pagingOutcome x e else s) = t at paged
    split
    · exact S.callOutcome paged
    · exact S.segmentOutcome paged
    · exact S.receiptOutcome paged
    · exact paged

theorem deliver {o : Occ} {e : Ending} (h : P s) : P (s.deliver o e) := S.deliverTo (S.deliverTo h)

theorem deliverDenials {l : List (Occ × Denial)} (h : P s) : P (s.deliverDenials l) :=
  keeps_foldl _ (fun _ _ _ => S.deliver) h

theorem conclude {hd : Handle} {e : Ending} (h : P s) : P (s.conclude hd e) := by
  unfold State.conclude
  split
  · exact h
  · exact S.deliver (S.dropOccs h)

theorem concludeDone {hd : Handle} (h : P s) : P (s.concludeDone hd) := S.conclude (S.linkUpd h)

theorem missWindows {o : Occ} (h : P s) : P (s.missWindows o) := by
  unfold State.missWindows
  split
  · refine keeps_foldl _ (fun x _ t ht => ?_) h
    split
    · exact S.windowMissed ht
    · exact ht
  · exact h

/-! ### Requests (R37, R41, R44) -/

theorem askDenied {n : Occ} {r : Denial} (h : P s) : P (s.askDenied n r) := by
  refine keeps_foldl _ (fun x _ t ht => ?_) h
  split
  · exact S.lendOutcome ht
  · exact ht

end Steady

/-- Admission starts nothing: of a newcomer that is not STARTED the list has it, and what it had. -/
theorem startsNone_arbitrate (lend : Sub → Nat) (l : List Occ) {n : Occ} (new : n.started = false) :
    StartsNone l (arbitrate lend l n).plan := by
  refine StartsNone.of_subset fun p hp started => ?_
  have isNew : p ≠ n := fun e => by rw [e, new] at started; contradiction
  unfold arbitrate at hp
  dsimp only at hp
  split at hp
  · exact hp
  · split at hp
    · exact (List.mem_filter.1 ((mem_insertOcc.1 hp).resolve_left isNew)).1
    · split at hp
      · exact (mem_insertOcc.1 hp).resolve_left isNew
      · split at hp
        · split at hp
          · exact (List.mem_filter.1 ((mem_insertOcc.1 hp).resolve_left isNew)).1
          · exact hp
        · exact hp

/-- One subscription's turn in a merge (R41). -/
def mergeTurn (n o : Occ) (x : Sub) : Occ :=
  match n.who.get x with
  | some w =>
    { o with who := o.who.set x (some (match o.who.get x with
               | some v => v.joined w
               | none => w)),
             cls := min o.cls w.cls, kind := if w.kind = .paging then .paging else o.kind }
  | none => o

theorem mergeInto_eq (n o : Occ) : mergeInto n o = mergeTurn n (mergeTurn n o .a) .b := rfl

theorem mergeTurn_started (n o : Occ) (x : Sub) :
    (mergeTurn n o x).started = o.started ∧ (mergeTurn n o x).handle = o.handle := by
  unfold mergeTurn
  split <;> exact ⟨rfl, rfl⟩

/-- A merge starts nothing, and keeps the handle. -/
theorem mergeInto_started (n o : Occ) : (mergeInto n o).started = o.started ∧ (mergeInto n o).handle = o.handle := by
  rw [mergeInto_eq]
  obtain ⟨startedA, handleA⟩ := mergeTurn_started n o .a
  obtain ⟨startedB, handleB⟩ := mergeTurn_started n (mergeTurn n o .a) .b
  exact ⟨startedB.trans startedA, handleB.trans handleA⟩

namespace Steady

variable {P : State → Prop} (S : Steady P) {s : State}
include S

theorem enter {n : Occ} (new : n.started = false) (h : P s) : P (s.enter n).1 := by
  unfold State.enter
  dsimp only
  split
  · exact S.askDenied h
  · exact S.deliverDenials (S.rpl (startsNone_arbitrate _ _ new) h)

theorem ask {n : Occ} (new : n.started = false) (h : P s) : P (s.ask n).1 := by
  unfold State.ask
  split
  · exact S.askDenied h
  · split
    · refine S.rpl (fun p hp started => ?_) h
      obtain ⟨q, hq, rfl⟩ := List.mem_map.1 hp
      refine ⟨q, hq, ?_⟩
      split at started
      · next named =>
        rw [if_pos named]
        exact ⟨(mergeInto_started n q).1 ▸ started, (mergeInto_started n q).2.symm⟩
      · next other =>
        rw [if_neg other]
        exact ⟨started, rfl⟩
    · exact S.enter new h

theorem request {n : Occ} (new : n.started = false) (h : P s) : P (s.request n) := S.ask new h

theorem requestSeek {o : Occ} {u : Use} {us : List User} (new : o.started = false) (h : P s) :
    P (s.requestSeek o u us) := by
  unfold State.requestSeek
  split
  · exact h
  · exact S.request new h

theorem revoke {c : Fin 3} {n : Nat} (h : P s) : P (s.revoke c n) := S.deliverDenials (S.dropOccs h)

/-! ### A re-anchor (R52) -/

theorem readmit {n : Occ} (new : n.started = false) (h : P s) : P (s.readmit n) := by
  unfold State.readmit
  dsimp only
  split
  · exact S.deliver (S.rpl (StartsNone.of_subset fun _ hp _ => hp) h)
  · exact S.deliverDenials (S.rpl (startsNone_arbitrate _ _ new) h)

theorem reanchor {c : Fin 3} {e : Int} (h : P s) : P (s.reanchor c e) := by
  unfold State.reanchor
  dsimp only
  refine keeps_foldl _ (fun o ho t ht => S.readmit ?_ ht) (keeps_foldl _ (fun _ _ _ => S.deliver)
    (S.rpl (StartsNone.of_subset fun _ hp _ => (List.mem_filter.1 hp).1) h))
  obtain ⟨q, hq, rfl⟩ := List.mem_map.1 (List.mem_filter.1 ho).1
  have granted := (List.mem_filter.1 hq).2
  simp only [Bool.and_eq_true, Bool.not_eq_true'] at granted
  exact granted.2

end Steady

end Sys2Proof.Machine
end

section
/-! SUPPORT. What follows a command leaves alone, and the reports and seek events that are made of outcomes and requests
(R27, R28, R48). -/

namespace Sys2Proof.Machine

/-! ### What follows a command, block by block -/

/-- A command of the blocks that is due, by the state `u` that it finds. -/
theorem block_of_passed {s u : State} {dt : Nat} {g : State → Bool} {f : State → State} (time : u = s.advance dt)
    (working : u.working = true) (due : g u = true) : s.block dt g f = .next (u.finish (f u)) := by
  subst time
  exact block_of_due ((working_advance dt s).symm.trans working) due

theorem mem_passed {s u : State} {dt : Nat} (time : u = s.advance dt) : u.exm.mem = s.exm.mem := by
  rw [time, exm_advance]

theorem exm_finish (s0 s : State) : (s0.finish s).exm = s.retried.exm := by
  obtain ⟨q, fin⟩ := finish_eq s0 s; rw [fin]; rfl
theorem sbc_finish (s0 s : State) : (s0.finish s).sbc = s.retried.sbc := by
  obtain ⟨q, fin⟩ := finish_eq s0 s; rw [fin]; rfl
theorem cmu_finish (s0 s : State) : (s0.finish s).cmu = s.retried.cmu := by
  obtain ⟨q, fin⟩ := finish_eq s0 s; rw [fin]; rfl
theorem mbu_finish (s0 s : State) : (s0.finish s).mbu = s.retried.mbu := by
  obtain ⟨q, fin⟩ := finish_eq s0 s; rw [fin]; rfl
theorem rpl_finish (s0 s : State) : (s0.finish s).rpl = { s.retried.rpl with left := false } := by
  obtain ⟨q, fin⟩ := finish_eq s0 s; rw [fin]; rfl

/-! ### Whole blocks that outcomes cannot disturb -/

theorem steady_tmu (v : Tmu) : Steady fun t => t.tmu = v :=
  ⟨fun h => h, fun h => h, fun h => h, fun _ h => h, fun _ h => h⟩
theorem steady_cmu (v : Pair CellTable) : Steady fun t => t.cmu = v :=
  ⟨fun h => h, fun h => h, fun h => h, fun _ h => h, fun _ h => h⟩
theorem steady_mem (m : List Host.Cell) : Steady fun t => t.exm.mem = m :=
  ⟨fun h => h, fun h => h, fun h => h, fun _ h => h, fun _ h => h⟩

/-- No occupancy of the handle is STARTED. -/
def State.noneStarted (h : Handle) (s : State) : Prop := ∀ p ∈ s.rpl.plan, p.handle = h → p.started = false

theorem noneStarted_of_startsNone {h : Handle} {l m : List Occ} (none : StartsNone l m)
    (hl : ∀ p ∈ l, p.handle = h → p.started = false) : ∀ p ∈ m, p.handle = h → p.started = false := by
  intro p hp named
  by_contra started
  obtain ⟨q, hq, begun, same⟩ := none p hp (Bool.eq_true_of_not_eq_false started)
  rw [hl q hq (same.trans named)] at begun
  contradiction

theorem steady_noneStarted (h : Handle) : Steady (State.noneStarted h) :=
  ⟨fun hs => hs, fun hs => hs, fun hs => hs, fun _ hs => hs, noneStarted_of_startsNone⟩

/-- An occupancy that ends DONE leaves the list (R39). -/
theorem noneStarted_concludeDone (s : State) (h : Handle) : (s.concludeDone h).noneStarted h := by
  unfold State.concludeDone State.conclude
  split
  · next absent =>
    intro p hp named
    by_contra started
    exact List.find?_eq_none.1 absent p hp (by simp [named, started])
  · refine (steady_noneStarted h).deliver fun p hp named => ?_
    have other := (List.mem_filter.1 hp).2
    simpa [named] using other

/-! ### A NOTHING report (R27) -/

theorem handle_of_first_started {l : List Occ} {h : Handle} {o : Occ}
    (first : l.find? (fun p => p.handle == h && p.started) = some o) : o.handle = h := by
  have named := List.find?_some first
  rw [Bool.and_eq_true, beq_iff_eq] at named
  exact named.1

/-- A NOTHING report that is heard counts a miss, of the context and of the windows, and ends its occupancy DONE. -/
theorem execNothingReport_of_heard {s u : State} {dt : Nat} {h : Handle} {o : Occ} (time : u = s.advance dt)
    (working : u.working = true) (heard : u.heardBy h hearsBeacon = some o) :
    execNothingReport dt h s = .next (u.finish (((u.missBeacon o).missWindows o).concludeDone o.handle)) := by
  unfold execNothingReport State.report
  rw [block_of_passed time working (by rw [heard]; rfl), heard]

theorem missBeacon_of_heard {s : State} {o : Occ} (routed : s.routes o = true) (follows : (s.ctx o.ctx).follows = true)
    (hears : hearsBeacon o.kind = true) (ungridded : o.isGrid = false) : s.missBeacon o = s.modCtx o.ctx Ctx.miss :=
  if_pos (by rw [routed, follows, hears, ungridded]; rfl)

/-! ### A seek planning event (R28) -/

theorem retry_of_none {s : State} (p : Deferred → Bool) (h : s.tmu.deferred = []) : s.retry p = s := by
  unfold State.retry
  refine keeps_foldl (P := fun t => t = s) retryOrder (fun o _ t ht => ?_) rfl
  rw [ht, h]
  rfl

theorem retried_of_none {s : State} (h : s.tmu.deferred = []) : s.retried = s := by
  unfold State.retried
  rw [retry_of_none _ h, ite_self]

theorem execSeekPlanningEvent_of_due {s u : State} {dt : Nat} {c : Fin 3} (time : u = s.advance dt)
    (working : u.working = true) (seeks : (u.ctx c).state = .seek)
    (due : (u.ctx c).seekEventTime (u.ctx c).listen ≤ u.now) :
    execSeekPlanningEvent dt c s = .next (u.finish (u.seekEvent c)) :=
  block_of_passed (g := fun s => (s.ctx c).state == .seek && decide ((s.ctx c).seekEventTime (s.ctx c).listen ≤ s.now))
    time working (by rw [Bool.and_eq_true, beq_iff_eq, decide_eq_true_eq]; exact ⟨seeks, due⟩)

/-- The listen of the grid that the event of a context requests, its seekers apart. -/
def State.gridListen (s : State) (c : Fin 3) : Occ :=
  let b : Int := (s.ctx c).listenStart (s.ctx c).listen
  newOcc s .a c .seek 7 .seek 0 0 b (b + seekLen) .beacon

/-- The context after a seek planning event: on to the next listen of the grid. -/
def State.nextListen (s : State) (c : Fin 3) : State := s.modCtx c fun t => { t with listen := t.listen + 1 }

/-- With no request deferred, a seek planning event asks for the listen of its grid and does no more. -/
theorem seekEvent_of_none {s : State} (c : Fin 3) (h : s.tmu.deferred = []) :
    s.seekEvent c = (s.nextListen c).requestSeek (s.gridListen c) .seek ((s.ctx c).seekers (s.gridListen c).stop) := by
  unfold State.seekEvent State.retryAt
  rw [retry_of_none _ (by exact h)]
  rfl

/-- A request of the part's own that is not denied on entry is GRANTED where the plan list is empty. -/
theorem request_of_empty {s : State} {n : Occ} (empty : s.rpl.plan = []) (entered : s.entryDenial n = none) :
    ∃ h, (s.request n).rpl.plan = [{ n with handle := h }] := by
  unfold State.request State.ask State.enter
  rw [entered, empty]
  exact ⟨_, rfl⟩

theorem requestSeek_of_seekers (s : State) (o : Occ) (use : Use) {us : List User} (seekers : us ≠ []) :
    ∃ cls who, s.requestSeek o use us = s.request { o with kind := .seek, cls := cls, who := who } := by
  obtain ⟨u, us, rfl⟩ := List.exists_cons_of_ne_nil seekers
  exact ⟨_, _, rfl⟩

/-- A SEEK listen is not denied on entry, if its allocation stands and its issue time is ahead (R37). -/
theorem entryDenial_of_seek {s : State} {n : Occ} (kind : n.kind = .seek) (fresh : s.fresh n = true)
    (ahead : (s.now : Int) < n.issue) : s.entryDenial n = none := by
  unfold State.entryDenial
  rw [if_neg (by simp [fresh]), if_neg (by omega), if_neg (by simp [kind, isTransmit])]

end Sys2Proof.Machine

open Sys2Proof Sys2Proof.Machine

/-- Settles O32: the miss is the one write of a timing context, and the outcome that ends the listen touches none. -/
theorem nothingReportCountsAMiss : Obligations.NothingReportCountsAMiss := by
  intro s u dt h o time working marks first kind inTime routed ungridded follows
  refine ⟨_, execNothingReport_of_heard time working (heardBy_of_first_started first kind inTime), ?_⟩
  have missed := missBeacon_of_heard routed follows kind ungridded
  have ends := noneStarted_concludeDone ((u.missBeacon o).missWindows o) o.handle
  have silent := runSilent_concludeDone ((u.missBeacon o).missWindows o) o.handle
  have tmu := (steady_tmu _).concludeDone (hd := o.handle) ((steady_tmu (u.missBeacon o).tmu).missWindows (o := o) rfl)
  have cmu := (steady_cmu _).concludeDone (hd := o.handle) ((steady_cmu (u.missBeacon o).cmu).missWindows (o := o) rfl)
  have mem := (steady_mem _).concludeDone (hd := o.handle) ((steady_mem (u.missBeacon o).exm.mem).missWindows (o := o) rfl)
  generalize ((u.missBeacon o).missWindows o).concludeDone o.handle = t at ends silent tmu cmu mem ⊢
  rw [missed] at tmu cmu mem
  have stays : t.retried = t := retried_of_unfreed ((congrArg Tmu.freed tmu).trans (unfreed_of_marksOk marks).1)
  have ctx : t.ctx o.ctx = (u.ctx o.ctx).miss := by
    rw [State.ctx, tmu, ← State.ctx, State.ctx_modCtx_same]
  obtain ⟨b, e, held⟩ := ctx_finish u t o.ctx
  rw [held, rpl_finish, cmu_finish, exm_finish, stays, ctx, ← handle_of_first_started first]
  exact ⟨rfl, rfl, rfl, silent, ends, cmu, mem.trans (mem_passed (u := u) time)⟩

/-- Settles O37: the event moves on by one listen, and where the plan list is empty its request is admitted. -/
theorem seekEventRequestsTheListen : Obligations.SeekEventRequestsTheListen := by
  intro s u dt c j b time working marks quiet seeks onJ first due
  have come : (u.ctx c).seekEventTime (u.ctx c).listen ≤ u.now := by
    rw [onJ]
    unfold Ctx.seekEventTime Ctx.listenStart seekLead seekLen
    split at due
    · next zero => rwa [if_pos zero]
    · next later => rw [if_neg later]; omega
  refine ⟨_, execSeekPlanningEvent_of_due time working seeks come, ?_⟩
  rw [seekEvent_of_none c quiet]
  have moved : (u.nextListen c).ctx c = { u.ctx c with listen := (u.ctx c).listen + 1 } := State.ctx_modCtx_same _ _ _
  have start : (u.gridListen c).start = (b : Int) := by
    simp only [State.gridListen, newOcc, Ctx.listenStart, seekLead, seekLen]
    rw [onJ, first]
  have stop : (u.gridListen c).stop = (b : Int) + 11250 := congrArg (· + (11250 : Int)) start
  have fresh : (u.nextListen c).fresh (u.gridListen c) = true := by
    simp only [State.fresh, State.gridListen, newOcc, moved]
    rw [seeks]
    simp
  have listens := requestSeek_of_seekers (u.nextListen c) (u.gridListen c) .seek
    (us := (u.ctx c).seekers (u.gridListen c).stop)
  have tmu := (steady_tmu (u.nextListen c).tmu).requestSeek (o := u.gridListen c) (u := .seek)
    (us := (u.ctx c).seekers (u.gridListen c).stop) rfl rfl
  have mem := (steady_mem u.exm.mem).requestSeek (s := u.nextListen c) (o := u.gridListen c) (u := .seek)
    (us := (u.ctx c).seekers (u.gridListen c).stop) rfl rfl
  generalize (u.nextListen c).requestSeek (u.gridListen c) .seek ((u.ctx c).seekers (u.gridListen c).stop) = t
    at tmu mem listens ⊢
  have stays : t.retried = t := retried_of_unfreed ((congrArg Tmu.freed tmu).trans (unfreed_of_marksOk marks).1)
  have ctx : t.ctx c = { u.ctx c with listen := (u.ctx c).listen + 1 } := by rw [State.ctx, tmu, ← State.ctx, moved]
  obtain ⟨a, e, held⟩ := ctx_finish u t c
  rw [held, exm_finish, rpl_finish, stays, ctx]
  refine ⟨congrArg (· + 1) onJ, seeks, mem.trans (mem_passed time), fun empty ahead someone => ?_⟩
  obtain ⟨w, hw, seeker, d, deadline, reach⟩ := someone
  have sought : (u.ctx c).seekers (u.gridListen c).stop ≠ [] := by
    refine List.ne_nil_of_mem (List.mem_filter.2 ⟨hw, ?_⟩)
    rw [deadline, stop]
    simpa [seeker] using (by omega : (b : Int) + 11250 ≤ d)
  have inTime : ((u.nextListen c).now : Int) < (u.gridListen c).issue := by
    change (u.now : Int) < (u.gridListen c).start - 200
    omega
  obtain ⟨cls, who, asked⟩ := listens sought
  obtain ⟨h, granted⟩ := request_of_empty (s := u.nextListen c)
    (n := { u.gridListen c with kind := .seek, cls := cls, who := who }) empty (entryDenial_of_seek rfl fresh inTime)
  rw [asked, granted]
  exact ⟨_, List.mem_cons_self, rfl, rfl, start, stop, rfl⟩
end

section
/-! SUPPORT. Predicates that a planning event's offers cannot disturb. Beside what outcomes touch, an offer touches the
subscriptions, the cell tables, the handover machines, and of a timing context its staged assignment and its marks of MEASUREs
granted (chapters 3 to 9). Timing and the users of a context are no part of it (R31, R32). -/

namespace Sys2Proof.Machine

/-- A change of a context that writes its staged assignment and its marks of MEASUREs granted alone (R34, R89). -/
def MarksOnly (f : Ctx → Ctx) : Prop := ∀ k, f k = { k with staged := (f k).staged, measured := (f k).measured }

/-- The predicate is closed under what is written in the cell tables and in the mobility unit. -/
structure TableSteady (P : State → Prop) : Prop extends Steady P where
  cmu : ∀ {s : State} {v : Pair CellTable}, P s → P { s with cmu := v }
  mbu : ∀ {s : State} {v : Pair MbuX}, P s → P { s with mbu := v }

namespace TableSteady

variable {P : State → Prop} (T : TableSteady P) {s : State}
include T

theorem modTable {x : Sub} {f : CellTable → CellTable} (h : P s) : P (s.modTable x f) := T.cmu h
theorem modMbu {x : Sub} {f : MbuX → MbuX} (h : P s) : P (s.modMbu x f) := T.mbu h
theorem modMachine {x : Sub} {f : HoMachine → HoMachine} (h : P s) : P (s.modMachine x f) := T.mbu h
theorem resetMachine {x : Sub} {m : MachineState} (h : P s) : P (s.resetMachine x m) := T.modMachine h
theorem cellUpd {x : Sub} {r : Fin 18} {f : CellRec → CellRec} (h : P s) : P (s.cellUpd x r f) := T.raise (T.cmu h)

theorem cellSet {x : Sub} {r : Fin 18} {f : CellRec → CellRec} (h : P s) : P (s.cellSet x r f) := by
  unfold State.cellSet
  exact keeps_ite h (T.cellUpd h)

theorem setRole {x : Sub} {r : Fin 18} {role : CellRole} (h : P s) : P (s.setRole x r role) := T.cellSet h

theorem moveRole {x : Sub} {old new : CellRole} (h : P s) : P (s.moveRole x old new) :=
  keeps_foldl allRecs (fun _ _ _ hs => keeps_ite (T.setRole hs) hs) h

theorem dropServing {x : Sub} (h : P s) : P (s.dropServing x) := T.moveRole h
theorem dropTarget {x : Sub} (h : P s) : P (s.dropTarget x) := T.moveRole h

theorem zeroDwell {x : Sub} (h : P s) : P (s.zeroDwell x) := keeps_foldl allRecs (fun _ _ _ ht => T.cellSet ht) h

end TableSteady

/-- The predicate is closed under what an offer writes. -/
structure OfferSteady (P : State → Prop) : Prop extends TableSteady P where
  sbc   : ∀ {s : State} {v : Pair SbcX}, P s → P { s with sbc := v }
  pwc   : ∀ {s : State} {v : Pwc}, P s → P { s with pwc := v }
  marks : ∀ {s : State} {c : Fin 3} {f : Ctx → Ctx}, MarksOnly f → P s → P (s.modCtx c f)

namespace OfferSteady

variable {P : State → Prop} (O : OfferSteady P) {s : State}
include O

/-! ### Updates -/

theorem modSbc {x : Sub} {f : SbcX → SbcX} (h : P s) : P (s.modSbc x f) := O.sbc h
theorem subUpd {x : Sub} {f : SubRec → SubRec} (h : P s) : P (s.subUpd x f) := O.raise (O.sbc h)
theorem nameWindow {x : Sub} {f : Frame} (h : P s) : P (s.nameWindow x f) := O.modSbc h

theorem subSet {x : Sub} {f : SubRec → SubRec} (h : P s) : P (s.subSet x f) := by
  unfold State.subSet
  exact keeps_ite h (O.subUpd h)

/-! ### Calls and handovers in an offer (R113 to R115, R120, R141 to R143, R148 to R150) -/

theorem giveUp {x : Sub} (h : P s) : P (s.giveUp x) := by
  unfold State.giveUp
  refine O.resetMachine ?_
  split
  · exact O.cellUpd h
  · exact h

theorem reportTimer {x : Sub} {f : Frame} (h : P s) : P (s.reportTimer x f) := by
  unfold State.reportTimer
  dsimp only
  split
  · split
    · exact O.modMachine h
    · exact h
  · exact O.giveUp h

theorem offerReportTimer {x : Sub} {f : Frame} (h : P s) : P (s.offerReportTimer x f) := by
  unfold State.offerReportTimer
  exact keeps_ite (O.reportTimer h) h

theorem offerAckWindow {x : Sub} {f : Frame} (h : P s) : P (s.offerAckWindow x f) := by
  unfold State.offerAckWindow
  split
  · exact O.attemptFailed h
  · exact h

theorem offerSuspended {x : Sub} {c : Fin 3} {f : Frame} (h : P s) : P (s.offerSuspended x c f) := by
  unfold State.offerSuspended
  split
  · exact keeps_ite (O.expectDown (O.callStatusUpd h)) h
  · exact h

theorem offerWindow {x : Sub} {c : Fin 3} {f : Frame} (h : P s) : P (s.offerWindow x c f) := by
  unfold State.offerWindow
  split
  · exact h
  · exact keeps_ite (O.nameWindow (O.request rfl h)) (keeps_ite (O.nameWindow h) h)

theorem offerBeacon {x : Sub} {c : Fin 3} {f : Frame} (h : P s) : P (s.offerBeacon x c f) := by
  unfold State.offerBeacon
  split
  · exact O.request rfl h
  · exact keeps_ite (O.request rfl h) h
  · exact keeps_ite (O.offerWindow h) (keeps_ite (O.request rfl (O.offerWindow h)) (O.offerWindow h))
  · exact h

theorem offerDown {x : Sub} {c : Fin 3} {f : Frame} {k : Fin 4} (h : P s) : P (s.offerDown x c f k) := by
  unfold State.offerDown
  have asked := O.ask (n := { slotOcc s x c .rxVoice 2 .call f (s.call k).part.down .block with call := some k }) rfl h
  dsimp only
  split
  · next granted => rw [granted] at asked; exact O.expectDown asked
  · next denied => rw [denied] at asked; exact O.expectDown asked

theorem askUp {x : Sub} {c : Fin 3} {f : Frame} {k : Fin 4} {kind : Kind} {b : Uplink} (h : P s) :
    P (s.askUp x c f k kind b) := by
  unfold State.askUp
  have asked := O.ask (n := { slotOcc s x c kind 2 .call f (s.call k).part.up (.send (s.set x).tag b) with
    call := some k }) rfl h
  dsimp only
  split
  · next granted => rw [granted] at asked; exact O.callStatusUpd asked
  · next denied => rw [denied] at asked; exact O.callStatusUpd asked

theorem offerUp {x : Sub} {c : Fin 3} {f : Frame} {k : Fin 4} (h : P s) : P (s.offerUp x c f k) := by
  unfold State.offerUp
  split
  · exact O.askUp (O.modMachine h)
  · exact keeps_ite (O.askUp (O.modCall h)) (O.askUp h)

theorem offerCallSlot {x : Sub} {c : Fin 3} {f : Frame} {i : Nat} (h : P s) : P (s.offerCallSlot x c f i) := by
  unfold State.offerCallSlot
  split
  · exact h
  · exact keeps_ite h (keeps_ite (keeps_ite (O.request rfl h) h)
      (keeps_ite (keeps_ite (O.offerDown h) (keeps_ite (O.offerUp h) h)) h))

theorem offerListen {x : Sub} {c : Fin 3} {f : Frame} {i : Nat} (h : P s) : P (s.offerListen x c f i) := by
  unfold State.offerListen
  split
  · exact keeps_ite (O.request rfl h) h
  · exact h

theorem offerTarget {x : Sub} {c : Fin 3} {f : Frame} (h : P s) : P (s.offerTarget x c f) := by
  unfold State.offerTarget
  dsimp only
  split
  · have asked {n m : Occ} {f : HoMachine → HoMachine} (hn : n.started = false) (hm : m.started = false) :
        P (((s.modMachine x f).request n).request m) := O.request hm (O.request hn (O.modMachine h))
    exact keeps_ite (keeps_ite (O.request rfl (asked rfl rfl)) (asked rfl rfl)) h
  · exact h

/-! ### Measurements (R89 to R91) -/

theorem noteMeasure {x : Sub} {c : Fin 3} {f : Frame} {r : Fin 18} (h : P s) : P (s.noteMeasure x c f r) :=
  O.marks (fun _ => rfl) h

theorem measureSlot {x : Sub} {c : Fin 3} {f : Frame} {i : Nat} {first : Bool} {g : List (Fin 18)} (h : P s) :
    P (s.measureSlot x c f i first g).1 := by
  unfold State.measureSlot
  have asked := fun k probe => O.ask (n := measureOcc s x c f i k probe) rfl h
  split
  · next r _ =>
    have asked := asked (s.cell x r).key (some r)
    split
    · next granted => rw [granted] at asked; exact O.noteMeasure asked
    · next denied => rw [denied] at asked; exact asked
  · split
    · exact h
    · next r _ =>
      have asked := asked (s.cell x r).key none
      split
      · next granted => rw [granted] at asked; exact O.noteMeasure (O.modTable asked)
      · next denied => rw [denied] at asked; exact asked

theorem batch {x : Sub} {c : Fin 3} {f : Frame} (h : P s) : P (s.batch x c f) := by
  unfold State.batch
  exact keeps_foldl_pair _ (fun _ _ p hp => O.measureSlot hp) (O.subSet h)

/-! ### The open section (R14, R139, R142, R155, R164) -/

theorem offerCallOpen {x : Sub} {c : Fin 3} {f : Frame} (h : P s) : P (s.offerCallOpen x c f) := by
  unfold State.offerCallOpen
  split
  · exact h
  · exact keeps_ite h (keeps_ite (O.request rfl (O.modCall h)) (keeps_ite (O.request rfl (O.modCall h)) h))

theorem offerDecline {x : Sub} {c : Fin 3} {f : Frame} (h : P s) : P (s.offerDecline x c f) := by
  unfold State.offerDecline
  split
  · exact O.request rfl (O.setDecline h)
  · exact h

theorem offerReceipts {x : Sub} {c : Fin 3} {f : Frame} (h : P s) : P (s.offerReceipts x c f) :=
  keeps_foldl _ (fun _ _ _ ht => O.request rfl ht) (O.dropReceipts h)

theorem offerSegment {x : Sub} {c : Fin 3} {f : Frame} (h : P s) : P (s.offerSegment x c f) := by
  unfold State.offerSegment
  split
  · exact h
  · next i _ =>
    refine keeps_ite ?_ h
    have counted := O.slotUpd (i := i) (b := false) (f := fun o => { o with attempts := o.attempts + 1 }) h
    dsimp only
    generalize s.slotUpd i false (fun o => { o with attempts := o.attempts + 1 }) = t at counted ⊢
    have asked := O.ask (n := openOcc t x c .send f (t.slot i).block) rfl counted
    split
    · next granted => rw [granted] at asked; exact O.modSide asked
    · next denied => rw [denied] at asked; exact O.attemptFailed asked

/-! ### A planning event's offer -/

theorem offerServing {x : Sub} {c : Fin 3} {f : Frame} (h : P s) : P (s.offerServing x c f) := by
  unfold State.offerServing
  have timed := O.offerSuspended (x := x) (c := c) (f := f) (O.offerAckWindow (x := x) (f := f) (O.offerReportTimer (x := x) (f := f) h))
  refine keeps_ite timed (O.offerSegment (O.offerReceipts (O.offerDecline (O.offerCallOpen ?_))))
  refine keeps_foldl_pair _ (fun i _ p hp => ?_) (O.offerBeacon timed)
  have slot := O.offerCallSlot (x := x) (c := c) (f := f) (i := i) (O.offerListen (x := x) (c := c) (f := f) (i := i) hp)
  exact keeps_ite_fst (O.measureSlot slot) slot

theorem offerSub {x : Sub} {c : Fin 3} {f : Frame} (h : P s) : P (s.offerSub x c f) := by
  unfold State.offerSub
  have served := keeps_ite (P := P) (c := (s.ctx c).hasUser .serving x = true) (O.offerServing (x := x) (c := c) (f := f) h) h
  exact keeps_ite (O.offerTarget served) served

theorem handSlots {g : Staged} (h : P s) : P (s.handSlots g) := by
  unfold State.handSlots State.releaseOnSlot
  exact keeps_ite (O.callUpd h) (O.modCall (O.callUpd h))

theorem handStaged {c : Fin 3} {f : Frame} (h : P s) : P (s.handStaged c f) := by
  unfold State.handStaged
  split
  · exact keeps_ite (O.handSlots (O.marks (fun _ => rfl) h)) h
  · exact h

/-- The whole of an offer, once the event's retries have been made. -/
theorem offers {c : Fin 3} {f : Frame} (h : P s) :
    P ((((s.handStaged c f).offerSeek c f).offerSub .a c f).offerSub .b c f) :=
  O.offerSub (O.offerSub (O.requestSeek rfl (O.handStaged h)))

end OfferSteady

/-! ### What an offer leaves of the timing unit -/

/-- Context `c` is `k` but for its staged assignment and its marks of MEASUREs granted, no context has gone FREE in this step,
and no request is deferred. -/
def State.timedAs (c : Fin 3) (k : Ctx) (s : State) : Prop :=
  s.ctx c = { k with staged := (s.ctx c).staged, measured := (s.ctx c).measured } ∧ s.tmu.freed = false ∧
    s.tmu.deferred = []

theorem offerSteady_timedAs (c : Fin 3) (k : Ctx) : OfferSteady (State.timedAs c k) where
  txu h := h
  clu h := h
  raise h := h
  counts _ h := h
  rpl _ h := h
  sbc h := h
  cmu h := h
  mbu h := h
  pwc h := h
  marks {s d f} only h := by
    obtain ⟨same, unfreed, none⟩ := h
    refine ⟨?_, unfreed, none⟩
    by_cases here : c = d
    · subst here
      rw [State.ctx_modCtx_same, only, same]
    · rwa [State.ctx_modCtx_other s here]

theorem offerSteady_mem (m : List Host.Cell) : OfferSteady fun t => t.exm.mem = m where
  toSteady := steady_mem m
  sbc h := h
  cmu h := h
  mbu h := h
  pwc h := h
  marks _ h := h

/-- With no request deferred, an event plans its frame and makes its offers. -/
theorem offer_of_none {s : State} (c : Fin 3) (f : Frame) (h : s.tmu.deferred = []) :
    s.offer c f =
      (((((s.modCtx c fun t => t.planned f).handStaged c f).offerSeek c f).offerSub .a c f).offerSub .b c f) := by
  unfold State.offer State.retryAt
  rw [retry_of_none _ (by exact h)]
  exact if_pos (by rw [State.ctx_modCtx_same]; rfl)

theorem execPlanningEvent_of_due {s u : State} {dt : Nat} {c : Fin 3} {f : Frame} (time : u = s.advance dt)
    (working : u.working = true) (due : u.dueOffer c = some f) :
    execPlanningEvent dt c s = .next (u.finish (u.offer c f)) := by
  unfold execPlanningEvent
  rw [block_of_passed time working (by rw [due]; rfl), due]

theorem execWindowedPlanningEvent_of_due {s u : State} {dt : Nat} {c : Fin 3} {f : Frame} (time : u = s.advance dt)
    (working : u.working = true) (due : u.dueWindowed c = some f) :
    execWindowedPlanningEvent dt c s = .next (u.finish (u.offer c f)) := by
  unfold execWindowedPlanningEvent
  rw [block_of_passed time working (by rw [due]; rfl), due]

/-- A planning event that offers frame `f` records it, and leaves the context its state and its anchor. -/
theorem offer_records_frame {u : State} (c : Fin 3) (f : Frame) (marks : u.marksOk = true) (none : u.tmu.deferred = []) :
    ((u.finish (u.offer c f)).ctx c).lastPlanned = some f ∧
      ((u.finish (u.offer c f)).ctx c).state = (u.ctx c).state ∧
      ((u.finish (u.offer c f)).ctx c).anchorTime = (u.ctx c).anchorTime ∧
      ((u.finish (u.offer c f)).ctx c).anchorFrame = (u.ctx c).anchorFrame ∧
      (u.finish (u.offer c f)).exm.mem = u.exm.mem := by
  rw [offer_of_none c f none]
  have timed := (offerSteady_timedAs c ((u.ctx c).planned f)).offers (c := c) (f := f)
    (s := u.modCtx c fun t => t.planned f)
    ⟨by rw [State.ctx_modCtx_same], (unfreed_of_marksOk marks).1, none⟩
  have mem := (offerSteady_mem u.exm.mem).offers (c := c) (f := f) (s := u.modCtx c fun t => t.planned f) rfl
  generalize (((((u.modCtx c fun t => t.planned f).handStaged c f).offerSeek c f).offerSub .a c f).offerSub .b c f) = t
    at timed mem ⊢
  obtain ⟨same, unfreed, -⟩ := timed
  obtain ⟨b, e, held⟩ := ctx_finish u t c
  rw [held, exm_finish, retried_of_unfreed unfreed, same]
  exact ⟨rfl, rfl, rfl, rfl, mem⟩

/-! ### Which frame is offered, and when (R31, R32) -/

theorem dueOffer_of_continuous {s : State} {c : Fin 3} {m : Frame} (follows : (s.ctx c).follows = true)
    (continuous : (s.ctx c).continuous = true) (first : (s.ctx c).first = none) (last : (s.ctx c).lastPlanned = some m)
    (near : (s.ctx c).tooFar (plusFrames m 1) = false) :
    s.dueOffer c = if (s.ctx c).predict m ≤ s.now then some (plusFrames m 1) else none := by
  have next : (s.ctx c).nextContinuous s.now = some (plusFrames m 1, (s.ctx c).predict m) := by
    unfold Ctx.nextContinuous
    rw [first, continuous, last]
    rfl
  unfold State.dueOffer
  dsimp only
  rw [if_pos follows, next]
  simp [near]

/-- A CAMPED subscription alone in a context names the one frame that its WINDOWED events need. -/
theorem nextWindowed_of_alone {s : State} {c : Fin 3} {x : Sub} {w : Frame} (follows : (s.ctx c).follows = true)
    (windowed : (s.ctx c).continuous = false) (first : (s.ctx c).first = none)
    (alone : (s.ctx c).users = [{ role := .serving, sub := x, deadline := none }]) (camped : (s.sub x).state = .camped)
    (named : (s.sbc.get x).window = some w) (ahd : ahead w (s.ctx c).lastFrame = true) :
    s.nextWindowed (s.ctx c) = some (w, ((s.ctx c).predict w : Int) - 3000) := by
  have frames : s.namedFrames (s.ctx c) = [w] := by simp [State.namedFrames, alone, camped, named]
  have nearest : nearestAhead (s.ctx c).lastFrame [w] = some w := by simp [nearestAhead, ahd]
  unfold State.nextWindowed
  rw [if_pos (by simp [follows, windowed, first]), frames, nearest]
  rfl

end Sys2Proof.Machine

open Sys2Proof Sys2Proof.Machine

/-- Settles O36: the events by what an offer leaves of the timing unit, the frames and times by the next event of the context. -/
theorem planningEventsOfferFrames : Obligations.PlanningEventsOfferFrames := by
  refine ⟨⟨?_, ?_⟩, ?_, ?_⟩
  · intro s u dt c f time working marks none due
    obtain ⟨planned, state, anchorTime, anchorFrame, mem⟩ := offer_records_frame c f marks none
    exact ⟨_, execPlanningEvent_of_due time working due, planned, state, anchorTime, anchorFrame, mem.trans (mem_passed time)⟩
  · intro s c m follows continuous first last near
    exact dueOffer_of_continuous follows continuous first last near
  · intro s u dt c f time working marks none due
    obtain ⟨planned, state, anchorTime, -, mem⟩ := offer_records_frame c f marks none
    exact ⟨_, execWindowedPlanningEvent_of_due time working due, planned, state, anchorTime, mem.trans (mem_passed time)⟩
  · intro s c x w follows windowed first alone camped named ahd near
    unfold State.dueWindowed
    rw [nextWindowed_of_alone follows windowed first alone camped named ahd]
    simp [near]
end

section
/-! SUPPORT. Users that leave a context, and a seek user whose deadline has come (R19, R28, R65, R109, R119, R123). -/

namespace Sys2Proof.Machine

/-! ### Users that leave (R19) -/

/-- Once the user is off the list, all that is done is a withdrawal and, where no user is left, the context's freeing. -/
theorem removeUser_keeps {P : State → Prop} (S : Steady P) {s : State} {c : Fin 3} {r : Role} {x : Sub} (h : P s)
    (dropped : P (s.modCtx c fun k => k.dropUser r x))
    (emptied : ∀ t, P t → (t.ctx c).users = [] →
      P { t.modCtx c Ctx.freed with tmu := { (t.modCtx c Ctx.freed).tmu with freed := true } }) :
    P (s.removeUser c r x) := by
  unfold State.removeUser
  refine keeps_ite ?_ h
  have seeks := keeps_ite (c := isSeek r = true) (S.withdrawSeek (x := x) (c := c) dropped) dropped
  dsimp only
  generalize (if isSeek r = true then _ else _) = t at seeks ⊢
  split
  · next empty => exact S.revoke (emptied _ seeks (List.isEmpty_iff.1 empty))
  · exact seeks

/-- What a user's leaving touches neither in the blocks nor of the requests deferred. -/
structure SeatsOnly (u t : State) : Prop where
  cells    : t.cmu = u.cmu
  mobility : t.mbu = u.mbu
  deferred : t.tmu.deferred = u.tmu.deferred
  now      : t.now = u.now
  search   : ∀ x, (t.sbc.get x).search = (u.sbc.get x).search

theorem search_subUpd (s : State) (x y : Sub) (f : SubRec → SubRec) :
    ((s.subUpd x f).sbc.get y).search = (s.sbc.get y).search := by
  by_cases same : y = x
  · subst same; simp [State.subUpd, State.modSbc, State.raise]
  · simp [State.subUpd, State.modSbc, State.raise, same]

theorem steady_seatsOnly (u : State) : Steady (SeatsOnly u) where
  txu h := ⟨h.cells, h.mobility, h.deferred, h.now, h.search⟩
  clu h := ⟨h.cells, h.mobility, h.deferred, h.now, h.search⟩
  raise h := ⟨h.cells, h.mobility, h.deferred, h.now, h.search⟩
  counts _ h := ⟨h.cells, h.mobility, h.deferred, h.now, fun x => (search_subUpd _ _ x _).trans (h.search x)⟩
  rpl _ h := ⟨h.cells, h.mobility, h.deferred, h.now, h.search⟩

theorem seatsOnly_removeUser (s : State) (c : Fin 3) (r : Role) (x : Sub) : SeatsOnly s (s.removeUser c r x) :=
  removeUser_keeps (steady_seatsOnly s) ⟨rfl, rfl, rfl, rfl, fun _ => rfl⟩ ⟨rfl, rfl, rfl, rfl, fun _ => rfl⟩
    fun _ h _ => ⟨h.cells, h.mobility, h.deferred, h.now, h.search⟩

/-! ### A deadline that has come (R28) -/

/-- The deadline of a seek user among the context's has come. -/
theorem deadlinePast_of_mem {k : Ctx} {r : Role} {x : Sub} {d now : Nat} (seeks : isSeek r = true)
    (user : ({ role := r, sub := x, deadline := some d } : User) ∈ k.users) (come : d ≤ now) :
    k.deadlinePast r x now = true :=
  List.any_eq_true.2 ⟨_, user, by simp [seeks, come]⟩

theorem execSeekDeadline_of_mem {s u : State} {dt : Nat} {c : Fin 3} {r : Role} {x : Sub} {d : Nat}
    (time : u = s.advance dt) (working : u.working = true) (seeks : isSeek r = true)
    (user : ({ role := r, sub := x, deadline := some d } : User) ∈ (u.ctx c).users) (come : d ≤ u.now) :
    execSeekDeadline dt c r x s = .next (u.finish (u.notFound c r x)) :=
  block_of_passed (g := fun s => (s.ctx c).deadlinePast r x s.now) time working (deadlinePast_of_mem seeks user come)

/-! ### VERIFY (R96, R109) -/

theorem recordFor_of_cmu {s t : State} (h : t.cmu = s.cmu) (x : Sub) (k : Key) : t.recordFor x k = s.recordFor x k := by
  have cell : ∀ r, t.cell x r = s.cell x r := fun r => by rw [State.cell, h, ← State.cell]
  simp only [State.recordFor, cell]

theorem tmu_quietMark (s : State) (x : Sub) (k : Key) (t : Nat) : (s.quietMark x k t).tmu = s.tmu := by
  unfold State.quietMark
  split <;> rfl

theorem quietUntil_quietMark {s : State} {x : Sub} {k : Key} {t : Nat} {r : Fin 18} (record : s.recordFor x k = some r) :
    ((s.quietMark x k t).cell x r).quietUntil = s.now + t := by
  unfold State.quietMark
  rw [record]
  exact congrArg CellRec.quietUntil (State.cell_cellUpd_same s x r _)

/-- A VERIFY that is NOT FOUND ends the reselection in hand, and marks the record for its key. -/
theorem notFound_verify {u : State} (c : Fin 3) (x : Sub) (quiet : u.tmu.deferred = []) :
    (u.notFound c .verify x).tmu.deferred = [] ∧ ((u.notFound c .verify x).mbu.get x).inHand = none ∧
      ∀ r, u.recordFor x (u.ctx c).key = some r →
        ((u.notFound c .verify x).cell x r).quietUntil = u.now + quietVerify := by
  have seats := seatsOnly_removeUser u c .verify x
  unfold State.notFound
  dsimp only
  generalize u.removeUser c .verify x = v at seats ⊢
  refine ⟨?_, ?_, fun r record => ?_⟩
  · rw [State.tmu_modMbu, tmu_quietMark, seats.deferred, quiet]
  · simp [State.modMbu]
  · refine (quietUntil_quietMark ?_).trans (congrArg (· + quietVerify) seats.now)
    rwa [recordFor_of_cmu seats.cells]

/-! ### TARGET (R119, R123) -/

/-- An offer neither defers a request nor cancels one. -/
theorem offerSteady_deferred (l : List Deferred) : OfferSteady fun t => t.tmu.deferred = l where
  txu h := h
  clu h := h
  raise h := h
  counts _ h := h
  rpl _ h := h
  sbc h := h
  cmu h := h
  mbu h := h
  pwc h := h
  marks _ h := h

theorem deferred_removeRole {s : State} (r : Role) (x : Sub) (quiet : s.tmu.deferred = []) :
    (s.removeRole r x).tmu.deferred = [] := by
  have cancelled : (s.cancelDeferred r x).tmu.deferred = [] := by
    rw [State.cancelDeferred, quiet]
    rfl
  unfold State.removeRole
  dsimp only
  split
  · exact (seatsOnly_removeUser _ _ _ _).deferred.trans cancelled
  · exact cancelled

/-- The machine's state, with no request deferred, is none of what an outcome writes. -/
theorem steady_machineState (x : Sub) (m : MachineState) :
    Steady fun t => t.tmu.deferred = [] ∧ (t.machine x).state = m :=
  ⟨fun h => h, fun h => h, fun h => h, fun _ h => h, fun _ h => h⟩

/-- A handover that fails before its reversion deadline reverts. -/
theorem failHandover_reverts {s : State} (x : Sub) (quiet : s.tmu.deferred = [])
    (early : s.now < (s.machine x).leaveTime + reversionTime) :
    (s.failHandover x).tmu.deferred = [] ∧ ((s.failHandover x).machine x).state = .reverting := by
  unfold State.failHandover
  dsimp only
  rw [if_neg (by omega)]
  have removed := (offerSteady_deferred []).dropTarget (x := x)
    ((offerSteady_deferred []).withdraw (x := x) (p := fun o => some o.ctx == s.ctxOf .target x && !o.started)
      (deferred_removeRole .target x quiet))
  generalize ((s.removeRole .target x).withdraw x _).dropTarget x = v at removed ⊢
  have reverts : ∀ f : HoMachine → HoMachine, (∀ m, (f m).state = .reverting) →
      (v.modMachine x f).tmu.deferred = [] ∧ ((v.modMachine x f).machine x).state = .reverting :=
    fun f hf => ⟨removed, by rw [State.machine_modMachine_same]; exact hf _⟩
  have reverts := reverts (fun m => { m with state := .reverting, lock := none, arrivals := 0, area := none }) fun _ => rfl
  split
  · split
    · exact (steady_machineState x .reverting).request rfl reverts
    · exact reverts
  · exact reverts

/-! ### SEARCH (R64, R65) -/

theorem tryable_of_cmu {s t : State} (cells : t.cmu = s.cmu) (now : t.now = s.now) (x : Sub) (r : Fin 18) :
    t.tryable x r = s.tryable x r := by
  simp only [State.tryable, State.barred, State.cell, cells, now]

/-- The SEARCH requests alone wait, and the subscriptions' side is as given. -/
def State.searchesWait (b : Pair SbcX) (t : State) : Prop := t.sbc = b ∧ ∀ d ∈ t.tmu.deferred, d.role = .search

/-- A request joins a context, or takes a FREE one: of the timing unit its contexts alone are written. -/
theorem sbc_tryJoin {s t : State} {r : Role} {x : Sub} {k : Key} (h : s.tryJoin r x k = some t) :
    t.sbc = s.sbc ∧ t.tmu.deferred = s.tmu.deferred := by
  unfold State.tryJoin at h
  split at h
  · split at h
    · cases h; exact ⟨rfl, rfl⟩
    · split at h
      · cases h; exact ⟨rfl, rfl⟩
      · contradiction
  · split at h
    · cases h; exact ⟨rfl, rfl⟩
    · contradiction

theorem searchesWait_cancelDeferred {b : Pair SbcX} {s : State} {r : Role} {x : Sub} (h : s.searchesWait b) :
    (s.cancelDeferred r x).searchesWait b := ⟨h.1, fun d hd => h.2 d (List.mem_filter.1 hd).1⟩

theorem searchesWait_defer {b : Pair SbcX} {s : State} {x : Sub} {k : Key} (h : s.searchesWait b) :
    (s.defer .search x k).searchesWait b := by
  refine ⟨h.1, fun d hd => ?_⟩
  rcases List.mem_append.1 hd with old | new
  · exact (searchesWait_cancelDeferred h).2 d old
  · rw [List.mem_singleton.1 new]

theorem searchesWait_tryJoin {b : Pair SbcX} {s t : State} {r : Role} {x : Sub} {k : Key}
    (joined : s.tryJoin r x k = some t) (h : s.searchesWait b) : t.searchesWait b := by
  obtain ⟨sbc, deferred⟩ := sbc_tryJoin joined
  exact ⟨sbc.trans h.1, deferred ▸ h.2⟩

/-- No user has a lower priority than SEARCH: it takes no context by pre-emption (R21). -/
theorem victim_search (s : State) : s.victim .search = none := by
  have lowest : ∀ r : Role, (isSeek r && decide (seekPriority .search < seekPriority r)) = false := by
    intro r
    cases r <;> rfl
  refine List.foldl_fixed' (fun c => ?_) allCtx
  split
  · next u _ => rw [lowest u.role]; rfl
  · rfl

/-- A SEARCH request joins a context, takes a FREE one, or waits. -/
theorem searchesWait_allocate {b : Pair SbcX} {s : State} {x : Sub} {k : Key} (h : s.searchesWait b) :
    (s.allocate .search x k).searchesWait b := by
  unfold State.allocate
  split
  · next joined => exact searchesWait_tryJoin joined h
  · rw [victim_search]
    exact keeps_ite (searchesWait_defer h) (searchesWait_defer h)

theorem searchesWait_retry {b : Pair SbcX} {s : State} (p : Deferred → Bool) (h : s.searchesWait b) :
    (s.retry p).searchesWait b := by
  refine keeps_foldl retryOrder (fun o _ t ht => ?_) h
  split
  · next d hd =>
    rw [ht.2 d (List.mem_of_find?_eq_some hd)]
    exact keeps_ite (searchesWait_allocate (searchesWait_cancelDeferred ht)) ht
  · exact ht

theorem searchesWait_retried {b : Pair SbcX} {s : State} (h : s.searchesWait b) : s.retried.searchesWait b :=
  keeps_ite (searchesWait_retry _ h) h

/-- The attempt on a record is the one written to the pass, whether its request waits or not. -/
theorem attempt_searches {s : State} {x : Sub} {p : Search} (r : Fin 18) (rest : List (Fin 18))
    (pass : (s.sbc.get x).search = some p) (quiet : s.tmu.deferred = []) :
    ∃ b, (s.attempt x r rest).searchesWait b ∧
      (b.get x).search = some { p with rest := rest, current := some (r, (s.cell x r).key) } := by
  let t := s.modSbc x fun b =>
    { b with search := b.search.map fun p => { p with rest := rest, current := some (r, (s.cell x r).key) } }
  have start : t.searchesWait t.sbc := ⟨rfl, by rw [State.tmu_modSbc, quiet]; simp⟩
  refine ⟨t.sbc, ?_, ?_⟩
  · unfold State.attempt
    dsimp only
    split
    · next joined => exact searchesWait_tryJoin joined start
    · exact searchesWait_defer start
  · simp [t, State.modSbc, pass]

/-- The state once the attempt of a pass is over, its record no longer the current one. -/
def State.attemptOver (s : State) (x : Sub) (p : Search) : State :=
  s.modSbc x fun b => { b with search := some { p with current := none } }

theorem search_attemptOver (s : State) (x : Sub) (p : Search) :
    ((s.attemptOver x p).sbc.get x).search = some { p with current := none } := by
  simp [State.attemptOver, State.modSbc]

/-- The attempt of a pass has ended with records left: the next of them is tried, if it may be. -/
theorem nextAttempt_of_rest {s : State} {x : Sub} {p : Search} {r : Fin 18} {rs : List (Fin 18)}
    (pass : (s.sbc.get x).search = some p) (rest : p.rest = r :: rs) (tryable : s.tryable x r = true) :
    s.nextAttempt x = (s.attemptOver x p).attempt x r rs := by
  have first : (s.attemptOver x p).tryRecords x p.rest = some ((s.attemptOver x p).attempt x r rs) := by
    rw [rest]
    exact if_pos tryable
  unfold State.nextAttempt
  rw [pass]
  dsimp only
  rw [← State.attemptOver, first]

/-- The attempt of a pass has ended with no record left and the table as it was: the pass ends in LOST. -/
theorem nextAttempt_of_last {s : State} {x : Sub} {p : Search} (pass : (s.sbc.get x).search = some p)
    (rest : p.rest = []) (same : p.changed = false) :
    s.nextAttempt x = (s.attemptOver x p).enterLost x .notFound := by
  have last : (s.attemptOver x p).tryRecords x p.rest = none := by
    rw [rest]
    rfl
  unfold State.nextAttempt
  rw [pass]
  dsimp only
  rw [← State.attemptOver, last]
  exact if_neg (by simp [same])

theorem dropProbes_frame (s : State) (x : Sub) : (s.dropProbes x).sbc = s.sbc ∧ (s.dropProbes x).tmu = s.tmu := by
  refine keeps_foldl (P := fun t => t.sbc = s.sbc ∧ t.tmu = s.tmu) hostRecs (fun r _ t ht => ?_) ⟨rfl, rfl⟩
  unfold State.completeProbe
  split
  · exact ht
  · exact ht

theorem enterLost_state (s : State) (x : Sub) (c : ServiceCause) :
    (s.enterLost x c).tmu = s.tmu ∧ ((s.enterLost x c).sub x).state = .lost ∧ ((s.enterLost x c).sub x).cause = c ∧
      ((s.enterLost x c).sbc.get x).lostRetry = some (s.now + lostWait) := by
  unfold State.enterLost
  dsimp only
  obtain ⟨sbc, tmu⟩ := dropProbes_frame ((s.modSbc x fun b =>
    { b with search := none, lostRetry := some (s.now + lostWait) }).subUpd x fun r =>
    { r with state := .lost, cause := c }) x
  rw [tmu, State.sub, sbc]
  simp [State.subUpd, State.modSbc, State.raise]

end Sys2Proof.Machine

open Sys2Proof Sys2Proof.Machine

/-- Settles O43: the user's leaving keeps what its block goes by, and a search's next request takes no context from another, so
what the block is told stands once the requests are retried. -/
theorem seekDeadlineIsNotFound : Obligations.SeekDeadlineIsNotFound := by
  intro s u dt c x d time working quiet come
  refine ⟨fun user => ?_, fun user early => ?_, fun p r rs user pass rest tryable => ?_, fun p user pass rest same => ?_⟩
  · refine ⟨_, execSeekDeadline_of_mem time working rfl user come, ?_⟩
    obtain ⟨waits, ends, marks⟩ := notFound_verify c x quiet
    simp only [State.cell, mbu_finish, cmu_finish, retried_of_none waits]
    exact ⟨ends, marks⟩
  · refine ⟨_, execSeekDeadline_of_mem time working rfl user come, ?_⟩
    have seats := seatsOnly_removeUser u c .target x
    obtain ⟨waits, reverts⟩ := failHandover_reverts (s := u.removeUser c .target x) x (seats.deferred.trans quiet)
      (by rw [State.machine, seats.mobility, seats.now]; exact early)
    rw [State.machine, mbu_finish, retried_of_none (by exact waits)]
    exact reverts
  · refine ⟨_, execSeekDeadline_of_mem time working rfl user come, ?_⟩
    have seats := seatsOnly_removeUser u c .search x
    have next : u.notFound c .search x = _ := nextAttempt_of_rest ((seats.search x).trans pass) rest
      ((tryable_of_cmu seats.cells seats.now x r).trans tryable)
    obtain ⟨b, waits, tries⟩ := attempt_searches r rs
      (search_attemptOver (u.removeUser c .search x) x p) (seats.deferred.trans quiet)
    have cell : ((u.removeUser c .search x).attemptOver x p).cell x r = u.cell x r := by
      rw [State.cell, State.cell, ← seats.cells]
      rfl
    rw [sbc_finish, next, (searchesWait_retried waits).1, tries, cell]
  · refine ⟨_, execSeekDeadline_of_mem time working rfl user come, ?_⟩
    have seats := seatsOnly_removeUser u c .search x
    have next : u.notFound c .search x = _ := nextAttempt_of_last ((seats.search x).trans pass) rest same
    obtain ⟨tmu, lost, cause, retry⟩ := enterLost_state ((u.removeUser c .search x).attemptOver x p) x .notFound
    rw [State.sub, sbc_finish, next, retried_of_none (by rw [tmu]; exact seats.deferred.trans quiet)]
    exact ⟨lost, cause, retry.trans (congrArg (fun n => some (n + lostWait)) seats.now)⟩
end

section
/-! SUPPORT. Predicates that allocation cannot disturb. An allocation request joins a context, takes one that is FREE or held by
a lone seek user, or waits; of a block that it displaces a search pass alone goes on, which ends in LOST at the most (R20 to R22,
R64, R65). -/

namespace Sys2Proof.Machine

/-! ### What may be written -/

/-- A state in which a subscription holds no serving cell (R59). -/
def OutOfService (st : SubState) : Prop := st ≠ .camped ∧ st ≠ .connected ∧ st ≠ .moving

/-- A change of a subscription's side that gives it no serving cell and takes it into no state that holds one. -/
def Recedes (b b' : SbcX) : Prop :=
  (b'.part.serving = b.part.serving ∨ b'.part.serving = none) ∧
    (b'.part.state = b.part.state ∨ OutOfService b'.part.state)

theorem Recedes.refl (b : SbcX) : Recedes b b := ⟨.inl rfl, .inl rfl⟩

/-- A change of a context that starts no earlier allocation again (R19). -/
def KeepsAlloc (f : Ctx → Ctx) : Prop := ∀ k, k.alloc ≤ (f k).alloc

/-- A context that a request may take: FREE, or with no SERVING user (R20, R21). -/
def Ctx.vacant (k : Ctx) : Prop := k.state = .free ∨ ∀ u ∈ k.users, u.role ≠ .serving

/-- The predicate is closed under what an allocation request writes, the search pass of subscription `x` among it. A context
found vacant stays at the request's disposal. -/
structure AllocSteady (x : Sub) (P : State → Prop) : Prop extends TableSteady P where
  recede : ∀ {s : State} {f : SbcX → SbcX}, (∀ b, Recedes b (f b)) → P s → P (s.modSbc x f)
  wait   : ∀ {s : State} {l : List Deferred} {b : Bool}, P s → P { s with tmu := { s.tmu with deferred := l, freed := b } }
  join   : ∀ {s : State} {c : Fin 3} {u : User}, P s → P (s.modCtx c fun t => { t with users := t.users ++ [u] })
  drop   : ∀ {s : State} {c : Fin 3} {r : Role} {y : Sub}, r ≠ .serving → P s → P (s.modCtx c fun t => t.dropUser r y)
  take   : ∀ {s t : State} {c : Fin 3} {f : Ctx → Ctx}, P s → (s.ctx c).vacant → KeepsAlloc f → P t → P (t.modCtx c f)

theorem keepsAlloc_freed : KeepsAlloc Ctx.freed := fun k => Nat.le_succ k.alloc
theorem keepsAlloc_seekFor (k : Key) (u : User) (n : Nat) : KeepsAlloc fun t => t.seekFor k u n := fun t => Nat.le_succ t.alloc

/-- The victim of a pre-emption is the lone seek user of its context (R21). -/
theorem victim_lone {s : State} {r : Role} {c : Fin 3} {u : User} (h : s.victim r = some (c, u)) :
    (s.ctx c).users = [u] ∧ isSeek u.role = true := by
  have lone : ∀ v ∈ s.victim r, (s.ctx v.1).users = [v.2] ∧ isSeek v.2.role = true := by
    refine List.foldlRecOn allCtx _ (by simp) (motive := fun best : Option (Fin 3 × User) =>
      ∀ v ∈ best, (s.ctx v.1).users = [v.2] ∧ isSeek v.2.role = true) fun best hb d _ => ?_
    split
    · next u lone =>
      split
      · next seeks =>
        have new : ∀ v ∈ some (d, u), (s.ctx v.1).users = [v.2] ∧ isSeek v.2.role = true := by
          rintro v ⟨⟩
          exact ⟨lone, (Bool.and_eq_true _ _ ▸ seeks).1⟩
        split
        · split
          · exact new
          · exact hb
        · exact new
      · exact hb
    · exact hb
  exact lone (c, u) h

namespace AllocSteady

/-! ### A search pass (R64, R65) -/

section
variable {x : Sub} {P : State → Prop} (A : AllocSteady x P) {s : State}
include A

theorem subUpd {f : SubRec → SubRec}
    (recedes : ∀ b : SbcX, Recedes b { b with part := { f b.part with change := b.part.change + 1 } }) (h : P s) :
    P (s.subUpd x f) := A.raise (A.recede recedes h)

theorem completeProbe {y : Sub} {r : Fin 18} {level : Option Nat} (h : P s) : P (s.completeProbe y r level) := by
  unfold State.completeProbe
  split
  · exact A.cellUpd h
  · exact h

theorem dropProbes {y : Sub} (h : P s) : P (s.dropProbes y) :=
  keeps_foldl hostRecs (fun _ _ _ ht => A.completeProbe ht) h

theorem cancelDeferred {r : Role} {y : Sub} (h : P s) : P (s.cancelDeferred r y) := A.wait h
theorem defer {r : Role} {y : Sub} {k : Key} (h : P s) : P (s.defer r y k) := A.wait (A.cancelDeferred h)

theorem tryJoin {t : State} {r : Role} {y : Sub} {k : Key} (joined : s.tryJoin r y k = some t) (h : P s) : P t := by
  unfold State.tryJoin at joined
  split at joined
  · split at joined
    · cases joined; exact h
    · split at joined
      · cases joined; exact A.join h
      · contradiction
  · split at joined
    · next free =>
      cases joined
      have free := List.find?_some free
      exact A.take h (.inl (beq_iff_eq.1 free)) (keepsAlloc_seekFor _ _ _) h
    · contradiction

theorem attempt {r : Fin 18} {rest : List (Fin 18)} (h : P s) : P (s.attempt x r rest) := by
  have tried := A.recede (f := fun b =>
    { b with search := b.search.map fun p => { p with rest := rest, current := some (r, (s.cell x r).key) } })
    Recedes.refl h
  unfold State.attempt
  dsimp only
  split
  · next joined => exact A.tryJoin joined tried
  · exact A.defer tried

theorem tryRecords {t : State} {l : List (Fin 18)} (tried : s.tryRecords x l = some t) (h : P s) : P t := by
  induction l with
  | nil => contradiction
  | cons r rs ih =>
    rw [State.tryRecords] at tried
    split at tried
    · cases tried; exact A.attempt h
    · exact ih tried

theorem enterLost {c : ServiceCause} (h : P s) : P (s.enterLost x c) :=
  A.dropProbes (A.subUpd (fun _ => ⟨.inl rfl, .inr (by simp [OutOfService])⟩) (A.recede Recedes.refl h))

theorem beginPass (h : P s) : P (s.beginPass x) := by
  have begun := A.recede (f := fun b => { b with
    search := some { rest := s.passList x, current := none, again := [], changed := false }, lostRetry := none }) Recedes.refl h
  unfold State.beginPass
  dsimp only
  split
  · next tried => exact A.tryRecords tried begun
  · exact A.enterLost begun

theorem nextAttempt (h : P s) : P (s.nextAttempt x) := by
  unfold State.nextAttempt
  split
  · exact h
  · next p _ =>
    have ended := A.recede (f := fun b => { b with search := some { p with current := none } }) Recedes.refl h
    dsimp only
    split
    · next tried => exact A.tryRecords tried ended
    · exact keeps_ite (A.beginPass ended) (A.enterLost ended)

theorem searchPreempted (h : P s) : P (s.searchPreempted x) := A.nextAttempt (A.recede Recedes.refl h)

/-! ### Users that leave (R19, R109) -/

theorem freeCtx_of_vacant {c : Fin 3} (h : P s) (vacant : (s.ctx c).vacant) : P (s.freeCtx c) :=
  A.revoke (A.wait (A.take h vacant keepsAlloc_freed h))

theorem removeUser {c : Fin 3} {r : Role} {y : Sub} (seeks : r ≠ .serving) (h : P s) : P (s.removeUser c r y) :=
  removeUser_keeps A.toSteady h (A.drop seeks h) fun t ht empty =>
    A.wait (A.take ht (.inr (by simp [empty])) keepsAlloc_freed ht)

theorem removeRole {r : Role} {y : Sub} (seeks : r ≠ .serving) (h : P s) : P (s.removeRole r y) := by
  unfold State.removeRole
  dsimp only
  split
  · exact A.removeUser seeks (A.cancelDeferred h)
  · exact A.cancelDeferred h

theorem dropReselection {y : Sub} (h : P s) : P (s.dropReselection y) := A.removeRole (by simp) (A.modMbu h)

end

/-! ### Pre-emption and retries (R21, R22) -/

section
variable {P : State → Prop} (A : ∀ x, AllocSteady x P) {s : State}
include A

theorem tellPreempted {u : User} {k : Key} (h : P s) : P (s.tellPreempted u k) := by
  unfold State.tellPreempted
  split
  · exact (A u.sub).searchPreempted h
  · exact (A .a).modMbu h
  · exact h

theorem preempt {c : Fin 3} {u : User} {r : Role} {x : Sub} {k : Key} (h : P s) (vacant : (s.ctx c).vacant) :
    P (s.preempt c u r x k) := by
  have told := tellPreempted A (u := u) (k := (s.ctx c).key)
    ((A .a).take (f := fun t => { t with users := [] }) h vacant (fun _ => Nat.le_refl _) h)
  exact (A .a).revoke ((A .a).take h vacant (keepsAlloc_seekFor _ _ _) told)

theorem allocate {r : Role} {x : Sub} {k : Key} (h : P s) : P (s.allocate r x k) := by
  unfold State.allocate
  split
  · next joined => exact (A .a).tryJoin joined h
  · split
    · exact (A .a).defer h
    · split
      · next c u victim =>
        obtain ⟨lone, seeks⟩ := victim_lone victim
        refine preempt A h (.inr fun v hv serving => ?_)
        rw [lone, List.mem_singleton] at hv
        rw [← hv, serving] at seeks
        contradiction
      · exact (A .a).defer h

theorem retry {p : Deferred → Bool} (h : P s) : P (s.retry p) := by
  unfold State.retry
  refine keeps_foldl retryOrder (fun o _ t ht => ?_) h
  split
  · exact keeps_ite (allocate A ((A .a).cancelDeferred ht)) ht
  · exact ht

theorem retried (h : P s) : P s.retried := keeps_ite (retry A h) h

end

end AllocSteady
end Sys2Proof.Machine
end

section
/-! SUPPORT. A context that loses its cell: what each former user's block does, and what a subscription in service is left with
(R27, R61 to R64, R123, R125, R128, R147). -/

namespace Sys2Proof.Machine

/-! ### Predicates that leaving service cannot disturb -/

/-- The predicate is closed under what frees contexts and removes users, whatever their roles. -/
structure FreeSteady (P : State → Prop) : Prop extends TableSteady P where
  wait : ∀ {s : State} {l : List Deferred} {b : Bool}, P s → P { s with tmu := { s.tmu with deferred := l, freed := b } }
  ctx  : ∀ {s : State} {c : Fin 3} {f : Ctx → Ctx}, KeepsAlloc f → P s → P (s.modCtx c f)

/-- The predicate is closed under what subscription `x` gives up as it leaves service, and under its search. -/
structure ServiceSteady (x : Sub) (P : State → Prop) : Prop extends FreeSteady P where
  recede : ∀ {s : State} {f : SbcX → SbcX}, (∀ b, Recedes b (f b)) → P s → P (s.modSbc x f)

theorem ServiceSteady.toAlloc {x : Sub} {P : State → Prop} (V : ServiceSteady x P) : AllocSteady x P where
  toTableSteady := V.toTableSteady
  recede := V.recede
  wait := V.wait
  join := V.ctx fun _ => Nat.le_refl _
  drop _ := V.ctx fun _ => Nat.le_refl _
  take _ _ := V.ctx

namespace FreeSteady

variable {P : State → Prop} (F : FreeSteady P) {s : State}
include F

theorem freeCtx {c : Fin 3} (h : P s) : P (s.freeCtx c) := F.revoke (F.wait (F.ctx keepsAlloc_freed h))

theorem removeUser {c : Fin 3} {r : Role} {x : Sub} (h : P s) : P (s.removeUser c r x) :=
  removeUser_keeps F.toSteady h (F.ctx (fun _ => Nat.le_refl _) h) fun _ ht _ => F.wait (F.ctx keepsAlloc_freed ht)

theorem removeRole {r : Role} {x : Sub} (h : P s) : P (s.removeRole r x) := by
  unfold State.removeRole
  dsimp only
  split
  · exact F.removeUser (F.wait h)
  · exact F.wait h

theorem dropReselection {x : Sub} (h : P s) : P (s.dropReselection x) := F.removeRole (F.modMbu h)

theorem discardRanking {x : Sub} (h : P s) : P (s.discardRanking x) := F.zeroDwell (F.modMbu (F.dropReselection h))

theorem unstage {k : Fin 4} (h : P s) : P (s.unstage k) := by
  refine keeps_foldl allCtx (fun c _ t ht => ?_) h
  split
  · exact keeps_ite (F.ctx (fun _ => Nat.le_refl _) ht) ht
  · exact ht

theorem closeCall {k : Fin 4} {cause : CallCause} {byte : BitVec 8} (h : P s) : P (s.closeCall k cause byte) := by
  have withdrawn := F.withdraw (x := (s.call k).part.owner) (p := ofCall (s.call k).part.owner k (s.holding k))
    (F.dropUplinks (k := k) (F.flush (k := k) (p := s.downReady) h))
  unfold State.closeCall
  dsimp only
  exact F.callUpd (F.unstage (F.modCall (keeps_ite (F.modMachine withdrawn) withdrawn)))

theorem disableRinging {x : Sub} (h : P s) : P (s.disableRinging x) :=
  keeps_foldl allCalls (fun _ _ _ ht => keeps_ite (F.closeCall ht) ht) h

/-- A failed handover that is no second failure reverts, and touches the machine and the target's user (R123). -/
theorem failHandover {x : Sub}
    (second : (s.machine x).leaveTime + reversionTime ≤ s.now → P (s.secondFailure x)) (h : P s) : P (s.failHandover x) := by
  unfold State.failHandover
  dsimp only
  split
  · next late => exact second late
  · have reverting := F.modMachine (x := x)
      (f := fun m => { m with state := .reverting, lock := none, arrivals := 0, area := none })
      (F.dropTarget (x := x) (F.withdraw (x := x) (p := fun o => some o.ctx == s.ctxOf .target x && !o.started)
        (F.removeRole (r := .target) (x := x) h)))
    split
    · split
      · exact F.request rfl reverting
      · exact reverting
    · exact reverting

end FreeSteady

namespace ServiceSteady

variable {x : Sub} {P : State → Prop} (V : ServiceSteady x P) {s : State}
include V

theorem endListen (h : P s) : P (s.endListen x) := by
  unfold State.endListen
  split
  · exact h
  · exact V.withdraw (V.toAlloc.subUpd (fun _ => ⟨.inl rfl, .inl rfl⟩) h)

theorem leaveCell (h : P s) : P (s.leaveCell x) := by
  have users := V.removeRole (r := .serving) (x := x) (V.removeRole (r := .target) (x := x)
    (V.removeRole (r := .verify) (x := x) (V.removeRole (r := .search) (x := x) h)))
  have roles := V.dropTarget (x := x) (V.dropServing (x := x) (V.recede (f := fun b => { b with window := none })
    Recedes.refl (V.endListen (V.withdraw (x := x) (p := fun _ => true) users))))
  refine V.setDecline (V.discardRanking (V.resetMachine ?_))
  unfold State.subSet
  exact keeps_ite roles (V.toAlloc.subUpd (fun _ => ⟨.inr rfl, .inl rfl⟩) roles)

/-- A search begins from the record as it then stands. -/
theorem enterSearching_of_left {c : ServiceCause}
    (h : P ((s.leaveCell x).subUpd x fun r => { r with state := .searching, cause := c })) : P (s.enterSearching x c) :=
  V.toAlloc.beginPass (V.toAlloc.dropProbes (V.dropReceipts (V.dropReasm (V.textsLost h))))

/-- A subscription goes OFF from the record as it then stands. -/
theorem goOff_of_left
    (h : P ((s.leaveCell x).subUpd x fun r => { r with state := .off, cause := .none, history := [] })) : P (s.goOff x) :=
  V.raise (V.raise (V.toAlloc.dropProbes (V.disableRinging (V.dropReceipts (V.dropReasm (V.failQueue
    (V.recede Recedes.refl h)))))))

theorem searchOrOff {c : ServiceCause} (h : P s) : P (s.searchOrOff x c) :=
  keeps_ite
    (V.goOff_of_left (V.toAlloc.subUpd (fun _ => ⟨.inl rfl, .inr (by simp [OutOfService])⟩) (V.leaveCell h)))
    (V.enterSearching_of_left (V.toAlloc.subUpd (fun _ => ⟨.inl rfl, .inr (by simp [OutOfService])⟩) (V.leaveCell h)))

theorem enterSearching {c : ServiceCause} (h : P s) : P (s.enterSearching x c) :=
  V.enterSearching_of_left (V.toAlloc.subUpd (fun _ => ⟨.inl rfl, .inr (by simp [OutOfService])⟩) (V.leaveCell h))

theorem dropCall {cause : CallCause} {service : ServiceCause} (h : P s) : P (s.dropCall x cause service) := by
  refine V.searchOrOff (V.toAlloc.subUpd (fun _ => ⟨.inl rfl, .inl rfl⟩) ?_)
  split
  · exact V.closeCall h
  · exact h

end ServiceSteady

theorem ServiceSteady.tellLoss {u : User} {P : State → Prop} (V : ServiceSteady u.sub P) {s : State} (h : P s) :
    P (s.tellLoss u) := by
  unfold State.tellLoss
  split
  · split
    · exact V.dropCall h
    · exact V.dropCall h
    · exact V.enterSearching h
    · exact h
  · exact V.failHandover (fun _ => V.dropCall h) h
  · exact V.dropReselection h
  · exact V.toAlloc.nextAttempt h

/-! ### Allocations -/

/-- The allocations of a context are numbered upwards. -/
theorem serviceSteady_alloc (x : Sub) (c : Fin 3) (n : Nat) : ServiceSteady x fun t => n ≤ (t.ctx c).alloc where
  txu h := h
  clu h := h
  raise h := h
  counts _ h := h
  rpl _ h := h
  cmu h := h
  mbu h := h
  wait h := h
  recede _ h := h
  ctx {s d f} keeps h := by
    by_cases same : c = d
    · subst same
      rw [State.ctx_modCtx_same]
      exact Nat.le_trans h (keeps _)
    · rwa [State.ctx_modCtx_other s same]

theorem alloc_freeCtx (s : State) (c : Fin 3) : (s.ctx c).alloc < ((s.freeCtx c).ctx c).alloc := by
  refine (serviceSteady_alloc .a c _).revoke (Nat.le_of_eq ?_)
  exact (congrArg Ctx.alloc (State.ctx_modCtx_same s c Ctx.freed)).symm

/-! ### Out of service (R59, R63) -/

/-- The subscription holds no serving cell, nor is in a state that has one. -/
def State.outOf (y : Sub) (t : State) : Prop := (t.sub y).serving = none ∧ OutOfService (t.sub y).state

/-- The subscription is in a state that has a serving cell, and no search of it runs. -/
def State.inService (y : Sub) (t : State) : Prop := ¬OutOfService (t.sub y).state ∧ (t.sbc.get y).search = none

theorem CountsOnly.serving {f : SubRec → SubRec} (only : CountsOnly f) (r : SubRec) : (f r).serving = r.serving := by rw [only]
theorem CountsOnly.state {f : SubRec → SubRec} (only : CountsOnly f) (r : SubRec) : (f r).state = r.state := by rw [only]

theorem CountsOnly.recedes {f : SubRec → SubRec} (only : CountsOnly f) (b : SbcX) :
    Recedes b { b with part := { f b.part with change := b.part.change + 1 } } :=
  ⟨.inl (only.serving b.part), .inl (only.state b.part)⟩

theorem recedes_modSbc {f : SbcX → SbcX} (recedes : ∀ b, Recedes b (f b)) (s : State) (x y : Sub) :
    Recedes (s.sbc.get y) ((s.modSbc x f).sbc.get y) := by
  by_cases same : y = x
  · subst same
    rw [State.modSbc, Pair.get_set_same]
    exact recedes _
  · rw [State.modSbc, Pair.get_set_other _ same]
    exact Recedes.refl _

theorem outOf_modSbc {f : SbcX → SbcX} (recedes : ∀ b, Recedes b (f b)) {s : State} {x y : Sub} (h : s.outOf y) :
    (s.modSbc x f).outOf y := by
  obtain ⟨serving, state⟩ := recedes_modSbc recedes s x y
  refine ⟨?_, ?_⟩
  · rcases serving with same | none
    · exact same.trans h.1
    · exact none
  · rcases state with same | out
    · exact (same ▸ h.2 : OutOfService _)
    · exact out

theorem serviceSteady_outOf (x y : Sub) : ServiceSteady x (State.outOf y) where
  txu h := h
  clu h := h
  raise h := h
  counts only h := outOf_modSbc only.recedes h
  rpl _ h := h
  cmu h := h
  mbu h := h
  wait h := h
  recede recedes h := outOf_modSbc recedes h
  ctx _ h := h

theorem freeSteady_inService (y : Sub) : FreeSteady (State.inService y) where
  txu h := h
  clu h := h
  raise h := h
  counts {s x f} only h := by
    refine ⟨?_, (search_subUpd s x y f).trans h.2⟩
    by_cases same : y = x
    · subst same
      rw [State.sub_subUpd_same]
      exact only.state (s.sub y) ▸ h.1
    · rw [State.sub_subUpd_other s same]
      exact h.1
  rpl _ h := h
  cmu h := h
  mbu h := h
  wait h := h
  ctx _ h := h

/-- What one subscription gives up leaves the other in service. -/
theorem serviceSteady_inService {x y : Sub} (other : y ≠ x) : ServiceSteady x (State.inService y) where
  toFreeSteady := freeSteady_inService y
  recede {s f} _ h := by
    unfold State.inService at h ⊢
    rw [State.sub_modSbc_other s other]
    exact ⟨h.1, by rw [State.modSbc, Pair.get_set_other _ other]; exact h.2⟩

theorem freeSteady_unserved (y : Sub) : FreeSteady fun t => (t.sub y).serving = none where
  txu h := h
  clu h := h
  raise h := h
  counts {s x f} only h := by
    rcases (recedes_modSbc only.recedes s x y).1 with same | none
    · exact same.trans h
    · exact none
  rpl _ h := h
  cmu h := h
  mbu h := h
  wait h := h
  ctx _ h := h

theorem serving_leaveCell (s : State) (x : Sub) : ((s.leaveCell x).sub x).serving = none := by
  have F := freeSteady_unserved x
  refine F.setDecline (F.discardRanking (F.resetMachine ?_))
  rcases State.sub_subSet _ x fun r => { r with serving := none } with same | changed
  · rw [same]
  · rw [changed]

/-- Whoever enters a state without a cell, its cell left, is out of service. -/
theorem outOf_left {s : State} {x : Sub} {f : SubRec → SubRec} (state : ∀ r, OutOfService (f r).state)
    (serving : ∀ r, (f r).serving = r.serving) : ((s.leaveCell x).subUpd x f).outOf x := by
  unfold State.outOf
  rw [State.sub_subUpd_same]
  exact ⟨(serving _).trans (serving_leaveCell s x), state _⟩

theorem outOf_enterSearching (s : State) (x : Sub) (c : ServiceCause) : (s.enterSearching x c).outOf x :=
  (serviceSteady_outOf x x).enterSearching_of_left (outOf_left (fun _ => by simp [OutOfService]) fun _ => rfl)

theorem outOf_goOff (s : State) (x : Sub) : (s.goOff x).outOf x :=
  (serviceSteady_outOf x x).goOff_of_left (outOf_left (fun _ => by simp [OutOfService]) fun _ => rfl)

/-- A call dropped takes its subscription out of service (R125, R128). -/
theorem outOf_dropCall (s : State) (x : Sub) (cause : CallCause) (service : ServiceCause) :
    (s.dropCall x cause service).outOf x := keeps_ite (outOf_goOff _ x) (outOf_enterSearching _ x _)

/-! ### The former users are told (R27) -/

/-- The loss told to a subscription's SERVING user takes it out of service. -/
theorem outOf_tellLoss_serving {s : State} {w : User} (serving : w.role = .serving) (h : s.inService w.sub) :
    (s.tellLoss w).outOf w.sub := by
  unfold State.tellLoss
  rw [serving]
  dsimp only
  split
  · exact outOf_dropCall _ _ _ _
  · exact outOf_dropCall _ _ _ _
  · exact outOf_enterSearching _ _ _
  · next connected moving camped => exact absurd ⟨camped, connected, moving⟩ h.1

/-- The loss told to any user leaves a subscription in service, or takes it out of service. -/
theorem inService_tellLoss {s : State} {v : User} {y : Sub} (h : s.inService y) :
    (s.tellLoss v).inService y ∨ (s.tellLoss v).outOf y := by
  by_cases other : y = v.sub
  · subst other
    have F := freeSteady_inService v.sub
    by_cases serving : v.role = .serving
    · exact .inr (outOf_tellLoss_serving serving h)
    · unfold State.tellLoss
      split
      · contradiction
      · by_cases late : (s.machine v.sub).leaveTime + reversionTime ≤ s.now
        · rw [State.failHandover, if_pos late]
          exact .inr (outOf_dropCall _ _ _ _)
        · exact .inl (F.failHandover (fun early => absurd early late) h)
      · exact .inl (F.dropReselection h)
      · rw [State.nextAttempt, h.2]
        exact .inl h
  · exact .inl ((serviceSteady_inService other).tellLoss h)

/-- Once all are told, a subscription in service that had a SERVING user among them is out of service. -/
theorem outOf_tellLosses {w : User} {us : List User} (mem : w ∈ us) (serving : w.role = .serving) {s : State}
    (h : s.inService w.sub) : (us.foldl State.tellLoss s).outOf w.sub := by
  have stays : ∀ (us : List User) {s : State}, s.outOf w.sub → (us.foldl State.tellLoss s).outOf w.sub :=
    fun us _ out => keeps_foldl us (fun v _ _ ht => (serviceSteady_outOf v.sub w.sub).tellLoss ht) out
  induction us generalizing s with
  | nil => exact absurd mem List.not_mem_nil
  | cons v us ih =>
    rcases List.mem_cons.1 mem with first | later
    · subst first
      exact stays us (outOf_tellLoss_serving serving h)
    · rcases inService_tellLoss (v := v) h with still | out
      · exact ih later still
      · exact stays us out

/-- LOSS where a context has missed 50 beacons. -/
theorem execLoss_of_missed {s u : State} {dt : Nat} {c : Fin 3} (time : u = s.advance dt) (working : u.working = true)
    (follows : (u.ctx c).follows = true) (missed : 50 ≤ (u.ctx c).misses) :
    execLoss dt c s = .next (u.finish (u.loseCell c)) :=
  block_of_passed (g := fun s => s.lossOut c) time working (by simp [State.lossOut, follows, lossMisses, missed])

end Sys2Proof.Machine

open Sys2Proof Sys2Proof.Machine

/-- Settles O40: the allocation is over when the users are told, and a subscription told as SERVING user leaves service; no later
user's part and no request retried puts it back. -/
theorem fiftyMissesLoseTheCell : Obligations.FiftyMissesLoseTheCell := by
  intro s u dt c time working follows missed searches
  refine ⟨_, execLoss_of_missed time working follows missed, ?_, fun w mem serving served => ?_⟩
  · have allocs := fun x => serviceSteady_alloc x c ((u.ctx c).alloc + 1)
    obtain ⟨b, e, held⟩ := ctx_finish u (u.loseCell c) c
    have told : (u.ctx c).alloc + 1 ≤ ((u.loseCell c).ctx c).alloc :=
      keeps_foldl (P := fun t => (u.ctx c).alloc + 1 ≤ (t.ctx c).alloc) (u.ctx c).users
        (fun v _ _ ht => (allocs v.sub).tellLoss ht) (alloc_freeCtx u c)
    rw [held]
    exact AllocSteady.retried (fun x => (allocs x).toAlloc) told
  · have quiet : (u.sbc.get w.sub).search = none := by
      by_contra some
      have searching := searches w.sub (Option.isSome_iff_ne_none.2 some)
      rw [searching] at served
      simp at served
    have inService : u.inService w.sub := ⟨fun ⟨camped, connected, moving⟩ => by
      rcases served with here | here | here <;> contradiction, quiet⟩
    have told : (u.loseCell c).outOf w.sub := outOf_tellLosses mem serving ((freeSteady_inService w.sub).freeCtx inService)
    have out := AllocSteady.retried (fun x => (serviceSteady_outOf x w.sub).toAlloc) told
    rw [State.sub, sbc_finish]
    exact out
end

section
/-! SUPPORT. A BEACON report: what its contents and the batches of the windows it serves leave of the context that heard it, and
the context it tracks (R4 to R6, R25, R33, R48, R68, R84, R91, R97, R106, R124). -/

namespace Sys2Proof.Machine

/-! ### Predicates that a beacon's contents cannot disturb -/

/-- The predicate is closed under what offers and allocation requests write. -/
structure BeaconSteady (P : State → Prop) : Prop extends OfferSteady P where
  wait : ∀ {s : State} {l : List Deferred} {b : Bool}, P s → P { s with tmu := { s.tmu with deferred := l, freed := b } }
  join : ∀ {s : State} {c : Fin 3} {u : User}, P s → P (s.modCtx c fun t => { t with users := t.users ++ [u] })
  drop : ∀ {s : State} {c : Fin 3} {r : Role} {y : Sub}, r ≠ .serving → P s → P (s.modCtx c fun t => t.dropUser r y)
  take : ∀ {s t : State} {c : Fin 3} {f : Ctx → Ctx}, P s → (s.ctx c).vacant → KeepsAlloc f → P t → P (t.modCtx c f)

theorem BeaconSteady.toAlloc {P : State → Prop} (B : BeaconSteady P) (x : Sub) : AllocSteady x P where
  toTableSteady := B.toTableSteady
  recede _ := B.sbc
  wait := B.wait
  join := B.join
  drop := B.drop
  take := B.take

namespace BeaconSteady

variable {P : State → Prop} (B : BeaconSteady P) {s : State}
include B

/-! ### Pagings and acknowledgements (R7, R8, R70, R71, R138) -/

theorem incomingCall {x : Sub} {n : Nat} (h : P s) : P (s.incomingCall x n) := by
  unfold State.incomingCall
  split
  · exact h
  · split
    · exact B.callUpd (B.modCall (B.takeRef h))
    · exact B.subSet h

theorem textPaging {x : Sub} {f : Frame} (h : P s) : P (s.textPaging x f) := by
  have extended : P (s.extendListen x f) := by
    unfold State.extendListen
    split
    · exact keeps_ite (B.subUpd h) h
    · exact h
  exact keeps_ite (keeps_ite extended (B.subUpd h)) h

theorem takePaging {x : Sub} {b : Beacon} {r : PagingReason} (h : P s) : P (s.takePaging x b r) := by
  unfold State.takePaging
  split
  · exact B.incomingCall (B.subUpd h)
  · exact B.textPaging (B.subUpd h)

theorem takePagings {x : Sub} {b : Beacon} (h : P s) : P (s.takePagings x b) := by
  have called := keeps_ite (P := P) (c := pages b (s.set x).tag .call = true) (B.takePaging (x := x) (b := b) (r := .call) h) h
  exact keeps_ite (B.takePaging called) called

theorem takeAcks {x : Sub} {b : Beacon} (h : P s) : P (s.takeAcks x b) :=
  keeps_foldl _ (fun _ _ _ ht => B.takeAck ht) h

/-! ### The mobility unit's part (R97, R101, R103, R106, R112, R124) -/

theorem areaTest {x : Sub} {a : BitVec 12} (h : P s) : P (s.areaTest x a) := keeps_ite h (B.subUpd (B.modSbc h))

theorem releaseOnSlot {x : Sub} {k : Fin 4} (h : P s) : P (s.releaseOnSlot x k) := keeps_ite h (B.modCall h)

theorem revertHandover {x : Sub} (h : P s) : P (s.revertHandover x) := by
  unfold State.revertHandover
  split
  · exact h
  · exact B.textsBack (B.subUpd (B.callUpd (B.releaseOnSlot (B.modMachine h))))

theorem dwellStep {x : Sub} {e : Nat} {w : Bool} (h : P s) : P (s.dwellStep x e w) :=
  keeps_foldl allRecs (fun _ _ _ ht => keeps_ite (B.cellSet ht) (B.cellSet ht)) h

theorem evaluate {x : Sub} {w : Bool} (h : P s) : P (s.evaluate x w).1 := B.dwellStep (B.subUpd h)

theorem giveTarget {x : Sub} {r : Fin 18} (h : P s) : P (s.giveTarget x r) := keeps_ite h (B.setRole (B.dropTarget h))

theorem startReport {x : Sub} {t : Trigger} (h : P s) : P (s.startReport x t) := by
  unfold State.startReport
  exact B.modMachine (B.giveTarget h)

theorem takeEvaluation {x : Sub} {t : Option Trigger} (h : P s) : P (s.takeEvaluation x t) := by
  unfold State.takeEvaluation
  refine keeps_ite ?_ h
  split
  · exact keeps_ite (B.startReport (B.modMachine h)) (B.modMachine h)
  · exact B.modMachine h

theorem newWake {x : Sub} (h : P s) : P (s.newWake x) :=
  keeps_ite ((B.toAlloc x).dropReselection (B.modMbu h)) (B.modMbu h)

theorem startReselection {x : Sub} {t : Trigger} (h : P s) : P (s.startReselection x t) :=
  keeps_ite (AllocSteady.allocate B.toAlloc (B.modMbu h)) h

theorem rankWindow {x : Sub} {w : Bool} (h : P s) : P (s.rankWindow x w) := by
  unfold State.rankWindow
  dsimp only
  split
  · have ranked := B.evaluate (x := x) (w := w) (B.newWake (x := x) h)
    split
    · next found => rw [found] at ranked; exact B.startReselection ranked
    · next none => rw [none] at ranked; exact ranked
  · exact B.zeroDwell (B.newWake h)

theorem mobilityBeacon {o : Occ} {x : Sub} {b : Beacon} (h : P s) : P (s.mobilityBeacon o x b) := by
  unfold State.mobilityBeacon
  refine keeps_ite (B.revertHandover h) ?_
  have tested := B.areaTest (x := x) (a := b.area) h
  dsimp only
  split
  · exact keeps_ite (B.takeEvaluation (B.evaluate tested)) tested
  · exact keeps_ite (B.rankWindow tested) tested
  · exact tested

/-! ### The report (R6, R33, R84, R91) -/

theorem serveBeacon {o : Occ} {b : Beacon} {x : Sub} (h : P s) : P (s.serveBeacon o b x) :=
  keeps_ite (B.mobilityBeacon (B.takeAcks (B.takePagings (keeps_ite (B.subSet h) h)))) h

theorem sampleBeacon {o : Occ} {b : Beacon} {k : Key} {us : List User} (h : P s) : P (s.sampleBeacon o b k us) := by
  refine keeps_foldl allSubs (fun x _ t ht => keeps_ite ?_ ht) h
  unfold State.sample
  split
  · exact ht
  · exact B.cellUpd ht

theorem wakeSample {k : Ctx} {e : Int} (h : P s) : P (s.wakeSample k e) := by
  have taken := B.pwc (v := { s.pwc with accum := 0, sampled := true }) h
  refine keeps_ite (keeps_ite taken (keeps_ite ?_ ?_)) h
  · exact B.raiseIf _ (B.pwc taken)
  · exact B.raiseIf _ (B.pwc taken)

theorem handContents {o : Occ} {b : Beacon} {k : Key} (h : P s) : P (s.handContents o b k []) :=
  B.serveBeacon (B.serveBeacon h)

end BeaconSteady

/-- The batch of each window that the beacon served (R91). -/
def State.windowBatches (s : State) (o : Occ) (wins : List Sub) : State :=
  wins.foldl (fun s x =>
    if s.servingCtx x = some o.ctx ∧ (s.sub x).state = .camped then s.batch x o.ctx o.frame else s) s

theorem OfferSteady.windowBatches {P : State → Prop} (O : OfferSteady P) {s : State} {o : Occ} {wins : List Sub} (h : P s) :
    P (s.windowBatches o wins) := keeps_foldl wins (fun _ _ _ ht => keeps_ite (O.batch ht) ht) h

theorem outer_windowBatches (s : State) (o : Occ) (wins : List Sub) : (s.windowBatches o wins).outer = s.outer := by
  refine outer_foldl (fun t x => ?_) wins s
  split
  · exact outer_batch t x o.ctx o.frame
  · rfl

theorem outer_retried (s : State) : s.retried.outer = s.outer := by
  unfold State.retried
  split
  · exact outer_retry s _
  · rfl

/-- What is heard, then the occupancy's end, then the batches. -/
theorem beaconReport_eq (s : State) (o : Occ) (b : Beacon) :
    s.beaconReport o b = ((s.routeBeacon o b).concludeDone o.handle).windowBatches o
      (allSubs.filter fun x => s.windowServed o b x) := rfl

/-- A BEACON report that is heard. -/
theorem execBeaconReport_of_heard {s u : State} {dt : Nat} {h : Handle} {b : Beacon} {o : Occ} (time : u = s.advance dt)
    (working : u.working = true) (heard : u.heardBy h hearsBeacon = some o) :
    execBeaconReport dt h b s = .next (u.finish (u.beaconReport o b)) := by
  unfold execBeaconReport State.report
  rw [block_of_passed time working (by rw [heard]; rfl), heard]

/-! ### The link and the occupancy (R48, R49) -/

theorem beaconSteady_noneStarted (h : Handle) : BeaconSteady (State.noneStarted h) where
  toSteady := steady_noneStarted h
  cmu hs := hs
  mbu hs := hs
  sbc hs := hs
  pwc hs := hs
  marks _ hs := hs
  wait hs := hs
  join hs := hs
  drop _ hs := hs
  take _ _ _ hs := hs

theorem totalSilent_concludeDone (s : State) (h : Handle) : (s.concludeDone h).rpl.totalSilent = s.rpl.totalSilent := by
  have same : (s.concludeDone h).outer = (s.linkUpd s.rpl.totalSilent 0).outer := outer_conclude _ _ _
  refine (congrArg Outer.total same).trans ?_
  show (s.linkUpd s.rpl.totalSilent 0).rpl.totalSilent = s.rpl.totalSilent
  unfold State.linkUpd
  split <;> rfl

/-- What a report heard leaves of the link and of the host's memory, once the requests have been retried. -/
theorem retried_beaconReport_link (u : State) (o : Occ) (b : Beacon) :
    (u.beaconReport o b).retried.rpl.runSilent = 0 ∧
      (u.beaconReport o b).retried.rpl.totalSilent = u.rpl.totalSilent ∧
      (u.beaconReport o b).retried.noneStarted o.handle ∧ (u.beaconReport o b).retried.exm.mem = u.exm.mem := by
  have routed := outer_routeBeacon u o b
  rw [beaconReport_eq]
  generalize u.routeBeacon o b = v at routed ⊢
  have after := (outer_retried _).trans (outer_windowBatches (v.concludeDone o.handle) o
    (allSubs.filter fun x => u.windowServed o b x))
  refine ⟨(congrArg Outer.silent after).trans (runSilent_concludeDone v _), ?_, ?_, ?_⟩
  · exact ((congrArg Outer.total after).trans (totalSilent_concludeDone v _)).trans (congrArg Outer.total routed)
  · have N := beaconSteady_noneStarted o.handle
    exact AllocSteady.retried N.toAlloc (N.windowBatches (noneStarted_concludeDone v o.handle))
  · exact ((State.mem_of_outer after).trans ((steady_mem v.exm.mem).concludeDone rfl)).trans (State.mem_of_outer routed)

/-! ### Tracking (R25, R33) -/

/-- Context `c` keeps the timing of `k`, and a SERVING user. -/
def State.keepsTime (c : Fin 3) (k : Ctx) (t : State) : Prop :=
  t.ctx c = { k with users := (t.ctx c).users, staged := (t.ctx c).staged, measured := (t.ctx c).measured } ∧
    ∃ u ∈ (t.ctx c).users, u.role = .serving

/-- A change of a context that writes its users, its staged assignment and its marks alone, and leaves it a SERVING user. -/
theorem keepsTime_modCtx {c d : Fin 3} {k : Ctx} {f : Ctx → Ctx} {s : State}
    (only : ∀ k, f k = { k with users := (f k).users, staged := (f k).staged, measured := (f k).measured })
    (serving : ∀ k : Ctx, (∃ u ∈ k.users, u.role = .serving) → ∃ u ∈ (f k).users, u.role = .serving)
    (h : s.keepsTime c k) : (s.modCtx d f).keepsTime c k := by
  obtain ⟨time, served⟩ := h
  unfold State.keepsTime
  by_cases same : c = d
  · subst same
    rw [State.ctx_modCtx_same]
    refine ⟨(only _).trans ?_, serving _ served⟩
    exact congrArg (fun z : Ctx => { z with
      users := (f (s.ctx c)).users, staged := (f (s.ctx c)).staged, measured := (f (s.ctx c)).measured }) time
  · rw [State.ctx_modCtx_other s same]
    exact ⟨time, served⟩

/-- A context with a SERVING user, its cell held, is not at a request's disposal. -/
theorem not_vacant_of_keepsTime {c : Fin 3} {k : Ctx} {s : State} (held : k.state ≠ .free) (h : s.keepsTime c k) :
    ¬(s.ctx c).vacant := by
  obtain ⟨time, u, mem, serving⟩ := h
  rintro (free | none)
  · exact held ((congrArg Ctx.state time).symm.trans free)
  · exact none u mem serving

theorem beaconSteady_keepsTime (c : Fin 3) {k : Ctx} (held : k.state ≠ .free) : BeaconSteady (State.keepsTime c k) where
  txu h := h
  clu h := h
  raise h := h
  counts _ h := h
  rpl _ h := h
  sbc h := h
  cmu h := h
  mbu h := h
  pwc h := h
  wait h := h
  marks {s d f} only h := by
    have users : ∀ k, (f k).users = k.users := fun k => by rw [only]
    refine keepsTime_modCtx (fun k => ?_) (fun k served => users k ▸ served) h
    rw [users]
    exact only k
  join h := keepsTime_modCtx (fun _ => rfl)
    (fun _ ⟨u, mem, serving⟩ => ⟨u, List.mem_append_left _ mem, serving⟩) h
  drop {s d r y} seeks h := by
    refine keepsTime_modCtx (fun _ => rfl) (fun k ⟨u, mem, serving⟩ => ⟨u, List.mem_filter.2 ⟨mem, ?_⟩, serving⟩) h
    have other : u.role ≠ r := fun same => seeks (same.symm.trans serving)
    simp [other]
  take {s t d f} h vacant _ ht := by
    have other : c ≠ d := fun same => not_vacant_of_keepsTime held h (same ▸ vacant)
    unfold State.keepsTime
    rw [State.ctx_modCtx_other t other]
    exact ht

theorem track_frame (k : Ctx) (f : Frame) (e : Int) :
    (k.track f e).anchorFrame = f ∧ (k.track f e).misses = 0 ∧ (k.track f e).state = .locked ∧
      (k.track f e).halfWindow = lockedHalf ∧ (k.track f e).users = k.users := by
  unfold Ctx.track
  dsimp only
  split
  · exact ⟨rfl, rfl, rfl, rfl, rfl⟩
  · split <;> exact ⟨rfl, rfl, rfl, rfl, rfl⟩

/-- A deviation that re-anchors makes the capture the anchor (R25, R33). -/
theorem track_of_reanchors {k : Ctx} {f : Frame} {e : Int} (h : k.reanchors e = true) :
    (k.track f e).anchorTime = ((k.predict f : Int) + e).toNat ∧ (k.track f e).streak = 0 ∧
      (k.track f e).wakeMark = false := by
  unfold Ctx.track
  dsimp only
  split
  · exact ⟨rfl, rfl, rfl⟩
  · next not => exact absurd h not

/-- A deviation beyond the jitter band that does not re-anchor runs the streak, and the anchor is the predicted start (R25). -/
theorem track_of_streak {k : Ctx} {f : Frame} {e : Int} (h : k.reanchors e = false) (beyond : jitterBand < e.natAbs) :
    (k.track f e).anchorTime = k.predict f ∧ (k.track f e).streak = k.nextStreak e ∧
      (k.track f e).streakNeg = decide (e < 0) := by
  unfold Ctx.track
  dsimp only
  split
  · next again => exact absurd again (by rw [Bool.not_eq_true]; exact h)
  · exact ⟨rfl, rfl, rfl⟩

/-- A deviation within the jitter band moves the anchor by half of it (R25). -/
theorem track_of_jitter {k : Ctx} {f : Frame} {e : Int} (h : k.reanchors e = false) (within : e.natAbs ≤ jitterBand) :
    (k.track f e).anchorTime = ((k.predict f : Int) + e.tdiv 2).toNat ∧ (k.track f e).streak = 0 := by
  unfold Ctx.track
  dsimp only
  split
  · next again => exact absurd again (by rw [Bool.not_eq_true]; exact h)
  · rw [if_neg (by omega)]
    exact ⟨rfl, rfl⟩

theorem nextStreak_eq (k : Ctx) (e : Int) :
    k.nextStreak e = if k.streak ≠ 0 ∧ k.streakNeg = decide (e < 0) then k.streak + 1 else 1 := by
  have new : k.newStreak e = true ↔ ¬(k.streak ≠ 0 ∧ k.streakNeg = decide (e < 0)) := by
    rw [Ctx.newStreak, Bool.or_eq_true, beq_iff_eq, bne_iff_ne, not_and_or, not_ne_iff]
  unfold Ctx.nextStreak
  split
  · next begins => rw [if_neg (new.1 begins)]
  · next goes_on => rw [if_pos (by_contra fun h => goes_on (new.2 h))]

/-- Half of a deviation brings no anchor before time 0 where the whole brings none. -/
theorem toNat_add_half {p : Nat} {n : Nat} {e : Int} (capture : e = (n : Int) - p) :
    (((p : Int) + e.tdiv 2).toNat : Int) = (p : Int) + e.tdiv 2 := by
  refine Int.toNat_of_nonneg ?_
  rcases Int.le_total 0 e with late | early
  · have half := Int.tdiv_nonneg late (by decide : (0 : Int) ≤ 2)
    omega
  · have half : (e.tdiv 2).natAbs = e.natAbs / 2 := Int.natAbs_tdiv e 2
    omega

/-- The context after a beacon that it tracks, by the deviation `e` from the predicted start `p` and the streak count `n` (R25,
R33). -/
theorem track_cases {k : Ctx} {f : Frame} {capture p n : Nat} {e : Int} (predicted : p = k.predict f)
    (deviates : e = (capture : Int) - p)
    (count : n = if k.streak ≠ 0 ∧ k.streakNeg = decide (e < 0) then k.streak + 1 else 1) :
    (k.wakeMark = true → (k.track f e).anchorTime = capture ∧ (k.track f e).streak = 0 ∧ (k.track f e).wakeMark = false) ∧
      (k.wakeMark = false → e.natAbs ≤ 8 →
        ((k.track f e).anchorTime : Int) = (p : Int) + e.tdiv 2 ∧ (k.track f e).streak = 0) ∧
      (k.wakeMark = false → 8 < e.natAbs → n = 3 →
        (k.track f e).anchorTime = capture ∧ (k.track f e).streak = 0) ∧
      (k.wakeMark = false → 8 < e.natAbs → n ≠ 3 →
        (k.track f e).anchorTime = p ∧ (k.track f e).streak = n ∧ (k.track f e).streakNeg = decide (e < 0)) := by
  have captured : ((p : Int) + e).toNat = capture := by omega
  rw [← nextStreak_eq] at count
  subst predicted
  have reanchors : k.reanchors e = (k.wakeMark || (decide (8 < e.natAbs) && k.nextStreak e == 3)) := rfl
  refine ⟨fun woken => ?_, fun unwoken within => ?_, fun unwoken beyond third => ?_, fun unwoken beyond other => ?_⟩
  · rw [← captured]
    exact track_of_reanchors (by simp [reanchors, woken])
  · rw [← toNat_add_half deviates]
    obtain ⟨anchor, streak⟩ := track_of_jitter (k := k) (f := f) (e := e) (by rw [reanchors, unwoken]; simp; omega) within
    exact ⟨congrArg Nat.cast anchor, streak⟩
  · obtain ⟨anchor, streak, -⟩ := track_of_reanchors (k := k) (f := f) (e := e) (by simp [reanchors, beyond, ← count, third])
    exact ⟨anchor.trans captured, streak⟩
  · rw [count]
    exact track_of_streak (by simp [reanchors, unwoken, ← count, other]) beyond

/-! ### The beacon of a context that serves (R4 to R6, R25) -/

theorem finders_of_serving {k : Ctx} (serving : ∀ u ∈ k.users, u.role = .serving) : k.finders = [] := by
  refine List.filter_eq_nil_iff.2 fun u hu => ?_
  rw [serving u hu]
  simp [isSeek]

/-- Tracking and what the contents bring leave the context's timing as the deviation gives it. -/
theorem keepsTime_trackBeacon {s : State} {o : Occ} {b : Beacon} (users : (s.ctx o.ctx).users ≠ [])
    (serving : ∀ u ∈ (s.ctx o.ctx).users, u.role = .serving) :
    (s.trackBeacon o b).keepsTime o.ctx ((s.ctx o.ctx).track b.frame (deviation (s.ctx o.ctx) b)) := by
  obtain ⟨-, -, locked, -, same⟩ := track_frame (s.ctx o.ctx) b.frame (deviation (s.ctx o.ctx) b)
  have B := beaconSteady_keepsTime o.ctx (k := (s.ctx o.ctx).track b.frame (deviation (s.ctx o.ctx) b)) (by simp [locked])
  obtain ⟨u, mem⟩ := List.exists_mem_of_ne_nil _ users
  have tracked : (s.modCtx o.ctx fun t => t.track b.frame (deviation (s.ctx o.ctx) b)).keepsTime o.ctx
      ((s.ctx o.ctx).track b.frame (deviation (s.ctx o.ctx) b)) := by
    unfold State.keepsTime
    rw [State.ctx_modCtx_same]
    exact ⟨rfl, u, same ▸ mem, serving u mem⟩
  unfold State.trackBeacon
  dsimp only
  rw [finders_of_serving serving]
  exact B.handContents (B.sampleBeacon (B.wakeSample (keeps_ite (B.reanchor tracked) tracked)))

theorem routeBeacon_of_inWindow {s : State} {o : Occ} {b : Beacon} (routed : s.routes o = true)
    (follows : (s.ctx o.ctx).follows = true) (accepted : accepts (s.ctx o.ctx) b = true) (ungridded : o.isGrid = false)
    (frame : b.frame = o.frame) (within : (deviation (s.ctx o.ctx) b).natAbs ≤ (s.ctx o.ctx).window) :
    s.routeBeacon o b = s.trackBeacon o b := by
  have unsought : (s.ctx o.ctx).state ≠ .seek := fun seeks => by simp [Ctx.follows, seeks] at follows
  unfold State.routeBeacon
  dsimp only
  rw [if_neg (by simp [routed]), if_neg (by simp [accepted]), if_neg unsought, if_neg (by simp [ungridded]),
    if_neg (by simp [frame, within])]

/-- The report that tracks the cell leaves the context's timing so, once the requests have been retried. -/
theorem keepsTime_beaconReport {s : State} {o : Occ} {b : Beacon} (routed : s.routeBeacon o b = s.trackBeacon o b)
    (users : (s.ctx o.ctx).users ≠ []) (serving : ∀ u ∈ (s.ctx o.ctx).users, u.role = .serving) :
    (s.beaconReport o b).retried.keepsTime o.ctx ((s.ctx o.ctx).track b.frame (deviation (s.ctx o.ctx) b)) := by
  obtain ⟨-, -, locked, -, -⟩ := track_frame (s.ctx o.ctx) b.frame (deviation (s.ctx o.ctx) b)
  have B := beaconSteady_keepsTime o.ctx (k := (s.ctx o.ctx).track b.frame (deviation (s.ctx o.ctx) b)) (by simp [locked])
  rw [beaconReport_eq, routed]
  exact AllocSteady.retried B.toAlloc (B.windowBatches (B.concludeDone (keepsTime_trackBeacon users serving)))

end Sys2Proof.Machine

open Sys2Proof Sys2Proof.Machine

/-- Settles O31: the link, the occupancy and the host's memory by what no operation of the report touches; the context by what
its contents, its batches and the requests retried keep of a context with a SERVING user. -/
theorem beaconReportTracksTheCell : Obligations.BeaconReportTracksTheCell := by
  refine ⟨fun s u dt h b o time working first kind inTime => ?_,
    fun s u dt h b o time working _ first kind inTime routed ungridded follows users serving mismatch code frame within => ?_⟩
  · refine ⟨_, execBeaconReport_of_heard time working (heardBy_of_first_started first kind inTime), ?_⟩
    obtain ⟨silent, total, ends, mem⟩ := retried_beaconReport_link u o b
    rw [rpl_finish, exm_finish, ← handle_of_first_started first]
    exact ⟨silent, total, ends, mem.trans (mem_passed time)⟩
  · refine ⟨_, execBeaconReport_of_heard time working (heardBy_of_first_started first kind inTime), ?_⟩
    have tracks := routeBeacon_of_inWindow routed follows (by simp [accepts, mismatch, code]) ungridded frame within
    obtain ⟨timing, -⟩ := keepsTime_beaconReport tracks users serving
    obtain ⟨a, e, held⟩ := ctx_finish u (u.beaconReport o b) o.ctx
    rw [held, timing]
    obtain ⟨anchorFrame, misses, locked, half, -⟩ :=
      track_frame (u.ctx o.ctx) b.frame (deviation (u.ctx o.ctx) b)
    refine ⟨anchorFrame, misses, locked, half, rfl, fun p e n predicted deviates count => ?_⟩
    have same : deviation (u.ctx o.ctx) b = e := by rw [deviates, predicted]; rfl
    rw [same]
    exact track_cases predicted deviates count
end

section
/-! SUPPORT. Every command keeps the plan list free of conflicts and within its capacity (R39, R40): the operations of the blocks
do (Laws/PlanOps), and so do the entries to RUNNING and to RUN, STOP and the TXINHIBIT line. -/

namespace Sys2Proof.Machine

/-! ### Conflicts (R40) -/

/-- Where neither occupancy is empty, to come within the guard is to overlap or to leave less than the guard between the two. -/
theorem conflicts_iff {o n : Occ} (ho : o.start < o.stop) (hn : n.start < n.stop) :
    o.conflicts n = true ↔
      (o.start < n.stop ∧ n.start < o.stop) ∨
      (o.channel ≠ n.channel ∧
        ((o.stop ≤ n.start ∧ n.start - o.stop < 100) ∨ (n.stop ≤ o.start ∧ o.start - n.stop < 100))) := by
  unfold Occ.conflicts
  split
  · next same => simp [same]
  · next differ =>
    rw [Bool.and_eq_true, decide_eq_true_iff, decide_eq_true_iff]
    simp only [retuneGuard, ne_eq, differ, not_false_eq_true, true_and]
    omega

/-! ### The shapes of a command -/

/-- The plan list alone decides whether it is in order. -/
theorem planOk_of_plan {s t : State} (same : t.rpl.plan = s.rpl.plan) (h : s.planOk = true) : t.planOk = true := by
  unfold State.planOk
  rw [same]
  exact h

theorem planOk_ite {c : Prop} [Decidable c] {s t : State} (hs : s.planOk = true) (ht : t.planOk = true) :
    (if c then s else t).planOk = true := keeps_ite (P := fun t => t.planOk = true) hs ht

theorem planOk_of_direct {s t : State} {dt : Nat} {g : State → Bool} {f : State → State} (h : s.planOk = true)
    (runs : s.direct dt g f = .next t) (act : ∀ u : State, u.planOk = true → (f u).planOk = true) : t.planOk = true := by
  unfold State.direct at runs
  cases runs
  have passed : (s.advance dt).planOk = true := planOk_of_plan (congrArg Rpl.plan (rpl_advance dt s)) h
  exact planOk_ite (act _ passed) passed

theorem planOk_of_block {s t : State} {dt : Nat} {g : State → Bool} {f : State → State} (h : s.planOk = true)
    (runs : s.block dt g f = .next t) (act : ∀ u : State, u.planOk = true → (f u).planOk = true) : t.planOk = true :=
  planOk_of_direct h runs fun u hu => planOk_finish u _ (act u hu)

theorem planOk_of_report {s t : State} {dt : Nat} {hd : Handle} {expects : Kind → Bool} {act : Occ → State → State}
    (h : s.planOk = true) (runs : s.report dt hd expects act = .next t)
    (acts : ∀ (o : Occ) (u : State), u.planOk = true → (act o u).planOk = true) : t.planOk = true := by
  refine planOk_of_block h runs fun u hu => ?_
  split
  · exact acts _ u hu
  · exact hu

/-! ### The TXINHIBIT line (R53, R54) -/

theorem planOk_inhibitOn {s : State} (h : s.planOk = true) : s.inhibitOn.planOk = true := by
  unfold State.inhibitOn
  refine planOk_foldl (fun t o ht => ?_) _ (planOk_of_plan (s := s) rfl h)
  have dropped := planOk_dropOccs (fun p => p.handle == o.handle) ht
  exact planOk_ite (planOk_deliver o _ ((planOk_send _ _).trans dropped)) (planOk_deliver o _ dropped)

theorem planOk_inhibitOff {s : State} (h : s.planOk = true) : s.inhibitOff.planOk = true :=
  planOk_foldl (fun t c ht => (planOk_modCtx t c _).trans ht) allCtx (planOk_of_plan (s := s) rfl h)

theorem planOk_sampleLine {s : State} (h : s.planOk = true) : s.sampleLine.planOk = true :=
  planOk_ite h (planOk_ite (planOk_inhibitOn h) (planOk_inhibitOff h))

/-! ### START, the entry to RUNNING, STOP (R192, R193) -/

theorem planOk_startSub {s : State} (x : Sub) (h : s.planOk = true) : (s.startSub x).planOk = true := by
  unfold State.startSub
  simp [h]

theorem planOk_startBlocks {s : State} (h : s.planOk = true) : s.startBlocks.planOk = true := by
  unfold State.startBlocks
  dsimp only
  rw [planOk_scanClear, planOk_scanClear]
  exact planOk_takeTables (planOk_of_plan (s := (s.startSub .a).startSub .b) rfl (planOk_startSub .b (planOk_startSub .a h)))

theorem planOk_startPower (s : State) : s.startPower.planOk = s.planOk := rfl

theorem planOk_startPart {s : State} (h : s.planOk = true) : s.startPart.planOk = true := by
  unfold State.startPart
  refine planOk_ite ?_ h
  exact planOk_of_plan (s := s.startBlocks.startPower) (by dsimp only) ((planOk_startPower _).trans (planOk_startBlocks h))

theorem planOk_enterRunning {s : State} (h : s.planOk = true) : s.enterRunning.planOk = true := by
  unfold State.enterRunning
  refine planOk_takeHeld (planOk_foldl (fun t x ht => ?_) allSubs h)
  exact planOk_ite (planOk_enableSub x ht) ht

theorem planOk_stopPlan (s : State) : s.stopPlan.planOk = true :=
  planOk_foldl (fun _ o ht => planOk_deliver o _ ht) s.rpl.plan (planOk_iff.2 planFine_nil)

theorem planOk_stopCalls {s : State} (h : s.planOk = true) : s.stopCalls.planOk = true :=
  planOk_foldl (fun _ k ht => planOk_ite (planOk_closeCall k _ _ ht) ht) allCalls h

theorem planOk_stopSub {s : State} (x : Sub) (h : s.planOk = true) : (s.stopSub x).planOk = true := by
  unfold State.stopSub
  exact planOk_setDecline x none (planOk_dropProbes x ((planOk_subSet s x _).trans h))

/-- STOP empties the plan list, and what it settles then asks for nothing. -/
theorem planOk_stopPart (s : State) : s.stopPart.planOk = true := by
  have queues := planOk_failQueue .b .stopped (planOk_failQueue .a .stopped (planOk_stopPlan s.dropWithdraws))
  have settled := planOk_stopSub .b (planOk_stopSub .a (planOk_stopCalls queues))
  unfold State.stopPart
  dsimp only
  rw [planOk_clearMarks]
  generalize State.stopSub _ .b = t at settled ⊢
  have listed : listOk t.rpl.plan = true := settled
  simp [listed]

theorem planOk_writeStop {s : State} (h : s.planOk = true) : s.writeStop.planOk = true := by
  unfold State.writeStop
  split
  · exact h
  · split
    · exact planOk_enterWaking _ h
    · exact h
    · exact planOk_stopPart s

/-! ### The host's writes (R174, R182, R183, R185) -/

theorem planOk_hostWrite {s : State} (word : BitVec 14) (lanes : BitVec 4) (data : Word) (h : s.planOk = true) :
    (s.hostWrite word lanes data).planOk = true := by
  have dropped : (s.dropWrite (4 * word.toNat) lanes).planOk = true := by
    unfold State.dropWrite
    dsimp only
    split
    · split <;> exact h
    · exact h
  unfold State.hostWrite
  dsimp only
  split
  · exact h
  · exact planOk_ite h dropped

theorem planOk_writeScan {s : State} (w : LaneWord) (h : s.planOk = true) : (s.writeScan w).planOk = true :=
  planOk_ite (planOk_enterWaking _ h) h

/-! ### The entry to RUN (R50, R175) -/

theorem planOk_missIssues {s : State} (h : s.planOk = true) : s.missIssues.planOk = true :=
  planOk_foldl (fun _ o ht => planOk_deliver o _ ht) _ (planOk_dropOccs _ h)

theorem planOk_lateEvents {s : State} (h : s.planOk = true) : s.lateEvents.planOk = true := by
  refine planOk_foldl (fun t c ht => ?_) allCtx h
  split
  · exact planOk_offer c _ ht
  · exact ht

theorem planOk_retryLost {s : State} (x : Sub) (h : s.planOk = true) : (s.retryLost x).planOk = true :=
  planOk_beginPass x ((planOk_subUpd s x _).trans h)

theorem planOk_lateTimers {s : State} (h : s.planOk = true) : s.lateTimers.planOk = true := by
  unfold State.lateTimers
  dsimp only
  refine planOk_foldl (fun t r ht => planOk_ite ((planOk_modReasm t r fun _ => Reasm.idle).trans ht) ht) allReasm ?_
  refine planOk_foldl (fun t x ht => planOk_ite (planOk_failHead x _ ht) ht) allSubs ?_
  refine planOk_foldl (fun t k ht => planOk_ite (planOk_endCall k _ _ ht) ht) allCalls ?_
  exact planOk_foldl (fun t x ht => planOk_ite (planOk_retryLost x ht) ht) allSubs h

theorem planOk_enterRun {s : State} (h : s.planOk = true) : s.enterRun.planOk = true := by
  have woken : ((s.powerUpd true fun p => { p with state := .run }).refresh).planOk = true :=
    ((planOk_refresh _).trans (planOk_powerUpd s true _)).trans h
  unfold State.enterRun
  have held := planOk_takeHeld (planOk_lateTimers (planOk_lateEvents (planOk_missIssues woken)))
  dsimp only
  generalize State.takeHeld _ = t at held ⊢
  split
  · exact planOk_of_plan (s := t.stopPart) (by dsimp only) (planOk_stopPart t)
  · exact planOk_finishEntry _ _ (planOk_sampleLine held)

/-! ### The radio link port and the events of the blocks -/

theorem planOk_issue {s : State} (o : Occ) (h : s.planOk = true) : (s.issue o).planOk = true := by
  have started := listOk_start o.handle (l := s.rpl.plan) h
  unfold State.issue
  refine planOk_setPower .run ?_
  dsimp only
  rw [planOk_mk]
  split <;> exact started

theorem planOk_tellLoss {s : State} (u : User) (h : s.planOk = true) : (s.tellLoss u).planOk = true := by
  unfold State.tellLoss
  split
  · split
    · exact planOk_linkFailure u.sub h
    · exact planOk_linkFailure u.sub h
    · exact planOk_enterSearching u.sub _ h
    · exact h
  · exact planOk_failHandover u.sub h
  · exact planOk_dropReselection u.sub h
  · exact planOk_nextAttempt u.sub h

theorem planOk_loseCell {s : State} (c : Fin 3) (h : s.planOk = true) : (s.loseCell c).planOk = true :=
  planOk_foldl (fun _ u ht => planOk_tellLoss u ht) _ (planOk_freeCtx c h)

theorem planOk_notFound {s : State} (c : Fin 3) (r : Role) (x : Sub) (h : s.planOk = true) :
    (s.notFound c r x).planOk = true := by
  have removed := planOk_removeUser c r x h
  unfold State.notFound
  cases r with
  | search => exact planOk_nextAttempt x removed
  | verify => exact planOk_quietMark x _ _ removed
  | target => exact planOk_failHandover x removed
  | serving => exact removed

/-! ### Every command -/

/-- Every command keeps the plan list in order. -/
theorem planOk_exec {s t : State} {i : Instr} (h : s.planOk = true) (runs : exec i s = .next t) : t.planOk = true := by
  have reset : ∀ u : State, u.resetPart.planOk = true := fun _ => planOk_iff.2 planFine_nil
  cases i with unfold exec at runs
  | powerOn => exact planOk_of_direct h runs fun u _ => reset u
  | resetPinAssert => exact planOk_of_direct h runs fun u _ => reset u
  | resetPinRelease => exact planOk_of_direct h runs fun _ h => h
  | softReset => exact planOk_of_direct h runs fun u _ => reset u
  | start => exact planOk_of_direct h runs fun _ h => planOk_startPart h
  | runningEntry => exact planOk_of_direct h runs fun u h => planOk_finishEntry u _ (planOk_enterRunning h)
  | stop => exact planOk_of_direct h runs fun _ h => planOk_writeStop h
  | hostMemoryWrite => exact planOk_of_direct h runs fun _ h => planOk_hostWrite _ _ _ h
  | ignoredRegisterWrite => exact planOk_of_direct h runs fun _ h => h
  | scanWrite => exact planOk_of_direct h runs fun _ h => planOk_writeScan _ h
  | pendingWrite => exact planOk_of_direct h runs fun _ h => h
  | enableWrite => exact planOk_of_direct h runs fun _ h => h
  | clockLoRead => exact planOk_of_direct h runs fun _ h => planOk_ite h h
  | subsScanTake => exact planOk_of_block h runs fun _ h => planOk_takeSubs h
  | cellsScanTake => exact planOk_of_block h runs fun _ h => planOk_takeCells h
  | callsScanTake => exact planOk_of_block h runs fun _ h => planOk_takeCalls h
  | outboxScanTake => exact planOk_of_block h runs fun _ h => planOk_takeOutbox h
  | inboxScanTake => exact planOk_of_block h runs fun _ h => planOk_takeInbox h
  | faultScanTake => exact planOk_of_block h runs fun _ h => planOk_takeFault h
  | noEffectScanTake => exact planOk_of_block h runs fun _ h => h
  | txInhibitAssert => exact planOk_of_direct h runs fun _ h => planOk_ite (planOk_finish _ _ (planOk_inhibitOn h)) h
  | txInhibitRelease => exact planOk_of_direct h runs fun _ h => planOk_ite (planOk_finish _ _ (planOk_inhibitOff h)) h
  | commandIssue =>
    refine planOk_of_block h runs fun u hu => ?_
    split
    exacts [planOk_issue _ hu, hu]
  | occupancySilent =>
    refine planOk_of_block h runs fun u hu => ?_
    split
    exacts [planOk_concludeSilent _ hu, hu]
  | beaconReport => exact planOk_of_report h runs fun o _ h => planOk_beaconReport o _ h
  | nothingReport =>
    exact planOk_of_report h runs fun o _ h => planOk_concludeDone _ (planOk_missWindows o (planOk_missBeacon o h))
  | blockReport => exact planOk_of_report h runs fun o _ h => planOk_concludeDone _ (planOk_routeBlock o _ h)
  | levelReport => exact planOk_of_report h runs fun o _ h => planOk_concludeDone _ (planOk_routeLevel o _ h)
  | sentReport => exact planOk_of_report h runs fun _ _ h => planOk_concludeDone _ h
  | planningEvent =>
    refine planOk_of_block h runs fun u hu => ?_
    split
    exacts [planOk_offer _ _ hu, hu]
  | windowedPlanningEvent =>
    refine planOk_of_block h runs fun u hu => ?_
    split
    exacts [planOk_offer _ _ hu, hu]
  | seekPlanningEvent => exact planOk_of_block h runs fun _ h => planOk_seekEvent _ h
  | frameBaseWrite =>
    refine planOk_of_block h runs fun u hu => ?_
    split
    exacts [hu, hu]
  | downlinkCellWrite =>
    refine planOk_of_block h runs fun u hu => ?_
    split
    exacts [planOk_downWrite _ _ hu, hu]
  | holdoverEntry => exact planOk_of_block h runs fun _ h => h
  | loss => exact planOk_of_block h runs fun _ h => planOk_loseCell _ h
  | windowsMissed => exact planOk_of_block h runs fun _ h => planOk_enterSearching _ _ h
  | failRun => exact planOk_of_block h runs fun _ h => planOk_enterSearching _ _ h
  | linkFailure => exact planOk_of_block h runs fun _ h => planOk_linkFailure _ h
  | seekDeadline => exact planOk_of_block h runs fun _ h => planOk_notFound _ _ _ h
  | lostRetry => exact planOk_of_block h runs fun _ h => planOk_retryLost _ h
  | listenPeriodEnd => exact planOk_of_block h runs fun _ h => planOk_endListen _ h
  | ringingExpiry => exact planOk_of_block h runs fun _ h => planOk_endCall _ _ _ h
  | accessTimerExpiry => exact planOk_of_block h runs fun _ h => planOk_endCall _ _ _ h
  | releaseTimerExpiry => exact planOk_of_block h runs fun _ h => planOk_endCall _ _ _ h
  | reportTimerExpiry => exact planOk_of_block h runs fun _ h => planOk_reportTimer _ _ h
  | leave =>
    refine planOk_of_block h runs fun u hu => ?_
    split
    exacts [planOk_leaveOld _ _ _ _ _ hu, hu]
  | arriveTimeout => exact planOk_of_block h runs fun _ h => planOk_failHandover _ h
  | secondFailure => exact planOk_of_block h runs fun _ h => planOk_secondFailure _ h
  | ackWindowClose =>
    refine planOk_of_block h runs fun u hu => ?_
    split
    exacts [planOk_closeWindow _ _ hu, hu]
  | noAck => exact planOk_of_block h runs fun _ h => planOk_failHead _ _ h
  | restartLimit => exact planOk_of_block h runs fun _ h => planOk_failHead _ _ h
  | pauseExpiry => exact planOk_of_block h runs fun _ h => planOk_failHead _ _ h
  | reassemblyTimeout => exact planOk_of_block h runs fun _ h => h
  | napEnd => exact planOk_of_direct h runs fun _ h => planOk_setPower _ h
  | slowTimerExpiry => exact planOk_of_direct h runs fun _ h => planOk_enterWaking _ h
  | wakingEnd => exact planOk_of_direct h runs fun _ h => planOk_enterRun h

/-- A tick changes a clock alone. -/
theorem rpl_tick (s : State) : s.tick.rpl = s.rpl := by
  unfold State.tick
  split
  · rfl
  · split
    · rfl
    · split <;> rfl

end Sys2Proof.Machine

open Sys2Proof Sys2Proof.Machine

/-- Settles O8: what conflicts is arithmetic on the guard of 100 µs; of a step, the tick leaves the list alone and every command
keeps it. -/
theorem planListIsConflictFree : Obligations.PlanListIsConflictFree := by
  refine ⟨fun o n => conflicts_iff, fun s t ok runs => ?_⟩
  unfold step at runs
  split at runs
  · cases runs
    exact planOk_of_plan (congrArg Rpl.plan (rpl_tick s)) ok
  · next c q _ => exact planOk_exec (s := { s with pending := q }) (planOk_of_plan rfl ok) runs
end

section
/-! SUPPORT. The order of two conflicting occupancies: the lending test of a pairing, and the rules that apply outside one
(R42, R43). -/

namespace Sys2Proof.Machine

/-- A pairing of the lending test: a PAGING of class 3 that subscription `x` requested, against a class-2 occupancy of the other
subscription alone (R42). -/
structure LendingCase (x : Sub) (n o : Occ) : Prop where
  paging : n.kind = .paging
  idle   : n.cls = 3
  pages  : n.asksPaging x = true
  held   : o.cls = 2
  others : o.asks (otherSub x) = true
  alone  : o.asks x = false

theorem lendingPair_eq_some_iff {x : Sub} {n o : Occ} : lendingPair n o = some x ↔ LendingCase x n o := by
  constructor
  · intro pair
    unfold lendingPair at pair
    split at pair
    · next idle =>
      unfold pagingOver at pair
      split at pair
      · next kinds =>
        have found := List.find?_some pair
        simp only [Bool.and_eq_true, Bool.not_eq_true'] at found
        obtain ⟨⟨pages, others⟩, alone⟩ := found
        exact ⟨kinds.1, idle, pages, kinds.2, others, alone⟩
      · contradiction
    · contradiction
  · rintro ⟨paging, idle, pages, held, others, alone⟩
    unfold lendingPair pagingOver
    rw [if_pos idle, if_pos ⟨paging, held⟩]
    cases x with
    | a => simp [allSubs, pages, others, alone]
    | b =>
      rw [otherSub] at others
      simp [allSubs, otherSub, pages, others, alone]

/-- No pairing stands both ways round: the classes differ. -/
theorem lendingPair_reverse {x : Sub} {n o : Occ} (h : LendingCase x n o) : lendingPair o n = none :=
  if_neg (by rw [h.held]; decide)

/-- In a pairing the PAGING wins where its subscription has been lent out twice, whichever of the two is the newcomer. -/
theorem beats_of_lending (lend : Sub → Nat) {x : Sub} {n o : Occ} (h : LendingCase x n o) :
    (beats lend n o = true ↔ 2 ≤ lend x) ∧ (beats lend o n = true ↔ ¬2 ≤ lend x) := by
  unfold beats
  rw [lendingPair_eq_some_iff.2 h, lendingPair_reverse h]
  simp

/-- Outside a pairing the class decides, then the start, then A's request, then the list. -/
theorem beats_of_no_lending (lend : Sub → Nat) {n o : Occ} (forth : lendingPair n o = none) (back : lendingPair o n = none) :
    beats lend n o =
      if n.cls ≠ o.cls then decide (n.cls < o.cls)
      else if n.start ≠ o.start then decide (n.start < o.start)
      else n.asks .a && !o.asks .a := by
  unfold beats
  rw [forth, back]

end Sys2Proof.Machine

open Sys2Proof Sys2Proof.Machine

/-- Settles O57: by the pairings of the lending test, and by the class, the start and A's request outside them. -/
theorem winnersOfConflicts : Obligations.WinnersOfConflicts := by
  refine fun lend n o => ⟨fun x paging idle pages held others alone => ?_, fun forth back => ?_, fun x pair => ?_⟩
  · exact beats_of_lending lend ⟨paging, idle, pages, held, others, alone⟩
  · rw [beats_of_no_lending lend forth back]
    refine ⟨fun lower => ?_, fun higher => ?_, fun same earlier => ?_, fun same later => ?_, fun same together => ?_⟩
    · rw [if_pos (Nat.ne_of_lt lower)]
      exact decide_eq_true lower
    · rw [if_pos (Nat.ne_of_gt higher)]
      exact decide_eq_false (Nat.lt_asymm higher)
    · rw [if_neg (not_not_intro same), if_pos (Int.ne_of_lt earlier)]
      exact decide_eq_true earlier
    · rw [if_neg (not_not_intro same), if_pos (Int.ne_of_gt later)]
      exact decide_eq_false (Int.lt_asymm later)
    · rw [if_neg (not_not_intro same), if_neg (not_not_intro together)]
      simp
  · obtain ⟨paging, idle, pages, held, others, alone⟩ := lendingPair_eq_some_iff.1 pair
    exact ⟨paging, idle, pages, held, others, alone⟩
end

section
/-! SUPPORT. The radio link port and the release of the TXINHIBIT line: a command issued, an occupancy that stays silent, a voice
frame that was sent, and the holds at the release (R39, R47 to R49, R54, R56, R149). -/

namespace Sys2Proof.Machine

/-! ### What follows a command of the blocks, the blocks that no retry is needed for -/

theorem clu_finish_of_unfreed {s0 s : State} (h : s.tmu.freed = false) : (s0.finish s).clu = s.clu := by
  obtain ⟨v, q, fin, -⟩ := finish_frame s0 s h; rw [fin]; rfl
theorem txu_finish_of_unfreed {s0 s : State} (h : s.tmu.freed = false) : (s0.finish s).txu = s.txu := by
  obtain ⟨v, q, fin, -⟩ := finish_frame s0 s h; rw [fin]; rfl

/-! ### A command issued (R47, R56) -/

theorem issueNow_of_first {s : State} {h : Handle} {o : Occ} (first : s.rpl.plan.find? (fun p => !p.started) = some o)
    (named : o.handle = h) (come : o.issue ≤ (s.now : Int)) : s.issueNow h = some o := by
  unfold State.issueNow
  rw [first]
  exact if_pos ⟨named, come⟩

theorem execCommandIssue_of_first {s u : State} {dt : Nat} {h : Handle} {o : Occ} (time : u = s.advance dt)
    (working : u.working = true) (first : u.rpl.plan.find? (fun p => !p.started) = some o) (named : o.handle = h)
    (come : o.issue ≤ (u.now : Int)) : execCommandIssue dt h s = .next (u.finish (u.issue o)) := by
  have found := issueNow_of_first first named come
  unfold execCommandIssue
  rw [block_of_passed time working (by rw [found]; rfl), found]

/-- Of the planner an issue writes the commands sent, the mark of the first since a reset, and the occupancy's start. -/
theorem rpl_issue (s : State) (o : Occ) : (s.issue o).rpl =
    { s.rpl with
      sent := o.command :: (if s.rpl.idleDue then .idleAll :: s.rpl.sent else s.rpl.sent)
      idleDue := false
      plan := s.rpl.plan.map fun p => if p.handle = o.handle then { p with started := true } else p } := by
  unfold State.issue
  rw [State.rpl_setPower]
  cases s.rpl.idleDue <;> rfl

/-- Beside the planner an issue touches the power controller and the POWER bit alone. -/
theorem issue_frame (s : State) (o : Occ) :
    (s.issue o).tmu = s.tmu ∧ (s.issue o).sbc = s.sbc ∧ (s.issue o).cmu = s.cmu ∧ (s.issue o).mbu = s.mbu ∧
      (s.issue o).clu = s.clu ∧ (s.issue o).txu = s.txu := by
  unfold State.issue
  rw [State.tmu_setPower, State.sbc_setPower, State.cmu_setPower, State.mbu_setPower, State.clu_setPower,
    State.txu_setPower]
  cases s.rpl.idleDue <;> exact ⟨rfl, rfl, rfl, rfl, rfl, rfl⟩

/-! ### Silence (R49) -/

/-- An occupancy that ends leaves the list, whatever its ending (R39). -/
theorem noneStarted_conclude (s : State) (h : Handle) (e : Ending) : (s.conclude h e).noneStarted h := by
  unfold State.conclude
  split
  · next absent =>
    intro p hp named
    by_contra started
    exact List.find?_eq_none.1 absent p hp (by simp [named, started])
  · refine (steady_noneStarted h).deliver fun p hp named => ?_
    have other := (List.mem_filter.1 hp).2
    simpa [named] using other

theorem linkUpd_counts (s : State) (m n : Nat) :
    (s.linkUpd m n).rpl.totalSilent = m ∧ (s.linkUpd m n).rpl.runSilent = n ∧ (s.linkUpd m n).exm.mem = s.exm.mem := by
  unfold State.linkUpd
  split
  · next same => exact ⟨same.1.symm, same.2.symm, rfl⟩
  · exact ⟨rfl, rfl, rfl⟩

theorem outer_concludeSilent (s : State) (o : Occ) : (s.concludeSilent o).outer =
    (s.linkUpd (satInc 65535 s.rpl.totalSilent) (satInc 65535 s.rpl.runSilent)).outer :=
  (outer_conclude _ _ _).trans (outer_missBeacon _ _)

/-- The first STARTED occupancy of the handle, its end 500 µs past, is found silent. -/
theorem execOccupancySilent_of_first {s u : State} {dt : Nat} {h : Handle} {o : Occ} (time : u = s.advance dt)
    (working : u.working = true) (first : u.rpl.plan.find? (fun p => p.handle == h && p.started) = some o)
    (late : o.stop + 500 ≤ (u.now : Int)) : execOccupancySilent dt h s = .next (u.finish (u.concludeSilent o)) := by
  have found : (u.rpl.plan.find? fun o => o.handle == h && o.started && decide (o.stop + reportGrace ≤ (u.now : Int))) =
      some o := by
    obtain ⟨named, before, after, plan, others⟩ := List.find?_eq_some_iff_append.1 first
    have silent : (o.handle == h && o.started && decide (o.stop + reportGrace ≤ (u.now : Int))) = true := by
      rw [named, Bool.true_and]
      exact decide_eq_true late
    refine List.find?_eq_some_iff_append.2 ⟨silent, before, after, plan, fun p hp => ?_⟩
    have other := others p hp
    rw [Bool.not_eq_true'] at other ⊢
    simp only [other, Bool.false_and]
  unfold execOccupancySilent
  dsimp only
  rw [block_of_passed time working (by rw [found]; rfl), found]

/-! ### A voice frame sent (R48, R149) -/

theorem execSentReport_of_heard {s u : State} {dt : Nat} {h : Handle} {o : Occ} (time : u = s.advance dt)
    (working : u.working = true) (heard : u.heardBy h isTransmit = some o) :
    execSentReport dt h s = .next (u.finish (u.concludeDone o.handle)) := by
  unfold execSentReport State.report
  rw [block_of_passed time working (by rw [heard]; rfl), heard]

/-- The final outcome of a frame whose entry still names it. -/
theorem call_upFinal {s : State} {k : Fin 4} {f : Frame} (o : UpOutcome)
    (names : ((s.call k).part.status[cellIndex f]).frame = f) : ((s.upFinal k f o).call k).part =
      { (s.call k).part with
        status := (s.call k).part.status.set (cellIndex f) { frame := f, outcome := o }
        ups := (s.call k).part.ups.add o
        change := (s.call k).part.change + 1 } := by
  unfold State.upFinal State.upWrite State.callStatusUpd
  rw [if_pos names]
  unfold State.raiseIf
  have written := State.call_modCall_same s k fun c => { c with part := { c.part with
    status := c.part.status.set (cellIndex f) { frame := f, outcome := o }
    ups := c.part.ups.add o
    change := c.part.change + 1 } }
  split <;> exact congrArg Call.part written

/-- An outcome that has one requester reaches that one alone. -/
theorem deliver_of_lone {s : State} {o : Occ} (e : Ending) {x : Sub} (lone : o.asks (otherSub x) = false) :
    s.deliver o e = s.deliverTo o e x := by
  have none : ∀ t : State, t.deliverTo o e (otherSub x) = t := fun t => by
    have absent : o.who.get (otherSub x) = none := by simpa [Occ.asks] using lone
    unfold State.deliverTo
    rw [absent]
  cases x with
  | a => exact none _
  | b => exact congrArg (fun t : State => t.deliverTo o e .b) (none s)

/-- The DONE of a voice frame's send makes the frame SENT, its requester's PAGING count apart. -/
theorem deliverTo_of_voice {s : State} {o : Occ} {x : Sub} {k : Fin 4} {tag : Tag} {payload : List Byte}
    (asked : o.asks x = true) (kind : o.kind = .txVoice) (call : o.call = some k)
    (content : o.content = .send tag (.voice payload)) :
    ∃ t : State, t.clu = s.clu ∧ s.deliverTo o .done x = t.upFinal k o.frame .sent := by
  obtain ⟨w, requester⟩ := Option.isSome_iff_exists.1 asked
  refine ⟨if w.kind = .paging then s.pagingOutcome x .done else s, ?_, ?_⟩
  · split
    · exact clu_pagingOutcome s x .done
    · rfl
  · unfold State.deliverTo State.callOutcome Occ.upRequest
    rw [requester, call, kind, content]
    rfl

/-- The DONE of a voice frame's send that one subscription asked for writes SENT where the entry names the frame. -/
theorem part_concludeDone_of_voice {s : State} {h : Handle} {o : Occ} {x : Sub} {k : Fin 4} {tag : Tag}
    {payload : List Byte} (first : s.rpl.plan.find? (fun p => p.handle == h && p.started) = some o)
    (asked : o.asks x = true) (lone : o.asks (otherSub x) = false) (kind : o.kind = .txVoice) (call : o.call = some k)
    (content : o.content = .send tag (.voice payload))
    (names : ((s.call k).part.status[cellIndex o.frame]).frame = o.frame) :
    ((s.concludeDone h).call k).part = { (s.call k).part with
      status := (s.call k).part.status.set (cellIndex o.frame) { frame := o.frame, outcome := .sent }
      ups := (s.call k).part.ups.add .sent
      change := (s.call k).part.change + 1 } := by
  unfold State.concludeDone State.conclude
  rw [plan_linkUpd, first]
  dsimp only
  rw [deliver_of_lone .done lone]
  obtain ⟨t, clu, sent⟩ := deliverTo_of_voice
    (s := (s.linkUpd s.rpl.totalSilent 0).dropOccs fun p => p.handle == h && p.started) asked kind call content
  have same : t.call k = s.call k := by
    have calls : t.clu = s.clu := clu.trans (by simp)
    rw [State.call, calls, ← State.call]
  rw [sent, call_upFinal .sent (by rw [same]; exact names), same]

/-! ### The holds at the release of the line (R54) -/

/-- The same change made to each context. -/
theorem ctx_modCtx_all (s : State) (f : Ctx → Ctx) (c : Fin 3) :
    (((s.modCtx 0 f).modCtx 1 f).modCtx 2 f).ctx c = f (s.ctx c) := by
  match c with
  | 0 => simp
  | 1 => simp
  | 2 => simp

theorem ctx_inhibitOff (s : State) (c : Fin 3) : s.inhibitOff.ctx c = (s.ctx c).inhibited s.now :=
  ctx_modCtx_all { s with rpl := { s.rpl with inhibit := false } } (fun k => k.inhibited s.now) c

/-- Beside the line as taken, the release writes the contexts alone. -/
theorem inhibitOff_frame (s : State) :
    ∃ v, s.inhibitOff = { s with rpl := { s.rpl with inhibit := false }, tmu := { s.tmu with ctx := v } } := ⟨_, rfl⟩

theorem hold_inhibited (k : Ctx) (now : Nat) : (k.inhibited now).hold =
    if k.follows then some { release := k.frameAt now, waiting := true } else k.hold := by
  unfold Ctx.inhibited
  split <;> rfl

/-- The TXINHIBIT pin driven; taking the line is the planner's (R53, R54). -/
def State.withLine (s : State) (asserted : Bool) : State := { s with pins := { s.pins with txInhibit := asserted } }

theorem execTxInhibitRelease_eq {s u : State} {dt : Nat} (time : u = s.advance dt) :
    execTxInhibitRelease dt s = .next
      (if u.working && u.rpl.inhibit then (u.withLine false).finish (u.withLine false).inhibitOff else u.withLine false) := by
  subst time
  rfl

end Sys2Proof.Machine

open Sys2Proof Sys2Proof.Machine

/-- Settles O30: the counts rise before the outcome is delivered, and neither the delivery nor the requests retried touch them or
start an occupancy. -/
theorem silentOccupancyCounts : Obligations.SilentOccupancyCounts := by
  intro s u dt h o time working first late
  refine ⟨_, execOccupancySilent_of_first time working first late, ?_⟩
  obtain ⟨total, run, mem⟩ := linkUpd_counts u (satInc 65535 u.rpl.totalSilent) (satInc 65535 u.rpl.runSilent)
  have outer := (outer_retried (u.concludeSilent o)).trans (outer_concludeSilent u o)
  have none := AllocSteady.retried (beaconSteady_noneStarted h).toAlloc (s := u.concludeSilent o)
    (handle_of_first_started first ▸ noneStarted_conclude _ o.handle .silent)
  rw [rpl_finish, exm_finish]
  exact ⟨(congrArg Outer.total outer).trans total, (congrArg Outer.silent outer).trans run, none,
    ((State.mem_of_outer outer).trans mem).trans (mem_passed time)⟩

/-- Settles O35: the outcome of the frame's one requester writes the entry, and what follows the command leaves the calls alone. -/
theorem sentReportWritesTheEntry : Obligations.SentReportWritesTheEntry := by
  intro s u dt h o x k tag payload time working marks first kind call content inTime asked lone names
  refine ⟨_, execSentReport_of_heard time working (heardBy_of_first_started first (by rw [kind]; rfl) inTime), ?_⟩
  rw [handle_of_first_started first]
  have tmu : (u.concludeDone h).tmu = u.tmu := (steady_tmu u.tmu).concludeDone rfl
  have unfreed : (u.concludeDone h).tmu.freed = false := tmu ▸ (unfreed_of_marksOk marks).1
  have part := part_concludeDone_of_voice first asked lone kind call content names
  rw [State.call, clu_finish_of_unfreed unfreed, ← State.call, part, rpl_finish, retried_of_unfreed unfreed]
  exact ⟨by simp, rfl, rfl, runSilent_concludeDone u h, noneStarted_concludeDone u h⟩

/-- Settles O23: the release writes the holds and the line as taken, and what follows it the contexts' activity and the power
controller. -/
theorem txInhibitReleaseHolds : Obligations.TxInhibitReleaseHolds := by
  intro s u dt time
  refine ⟨fun working asserted marks => ?_, fun idle => ?_⟩
  · have runs := execTxInhibitRelease_eq time
    rw [working, asserted, Bool.and_self, if_pos rfl] at runs
    refine ⟨_, runs, ?_⟩
    obtain ⟨w, released⟩ := inhibitOff_frame (u.withLine false)
    obtain ⟨unfreed, unleft⟩ := unfreed_of_marksOk marks
    have stays : (u.withLine false).inhibitOff.tmu.freed = false := by rw [released]; exact unfreed
    have holds : ∀ c, (((u.withLine false).finish (u.withLine false).inhibitOff).ctx c).hold =
        ((u.ctx c).inhibited u.now).hold := fun c => by
      obtain ⟨b, e, held⟩ := ctx_finish (u.withLine false) (u.withLine false).inhibitOff c
      rw [held, retried_of_unfreed stays, ctx_inhibitOff]
      rfl
    obtain ⟨z, q, fin, -⟩ := finish_frame (u.withLine false) (u.withLine false).inhibitOff stays
    rw [fin, released] at holds ⊢
    exact ⟨rfl, rfl, rfl, fun c => (holds c).trans (hold_inhibited _ _), rfl, rfl, rfl, rfl, rfl, rfl⟩
  · have idles : ¬(u.working && u.rpl.inhibit) = true := by rcases idle with off | off <;> simp [off]
    exact (execTxInhibitRelease_eq time).trans (by rw [if_neg idles]; rfl)

/-- Settles O29: an issue writes the planner as stated, and what follows the command writes no more of it than the mark of the
step. -/
theorem commandIssueStartsTheOccupancy : Obligations.CommandIssueStartsTheOccupancy := by
  intro s u dt h o time working marks first named come
  refine ⟨_, execCommandIssue_of_first time working first named come, ?_⟩
  obtain ⟨unfreed, unleft⟩ := unfreed_of_marksOk marks
  obtain ⟨tmu, sbc, cmu, mbu, clu, txu⟩ := issue_frame u o
  have stays : (u.issue o).tmu.freed = false := (congrArg Tmu.freed tmu).trans unfreed
  rw [rpl_finish, sbc_finish, cmu_finish, mbu_finish, clu_finish_of_unfreed stays, txu_finish_of_unfreed stays,
    retried_of_unfreed stays, rpl_issue, named]
  exact ⟨by simp [unleft], sbc, cmu, mbu, clu, txu⟩
end

section
/-! SUPPORT. What outcomes and allocation requests do to the planner: occupancies leave the list, none enters it and none changes
its kind. With it, the TXINHIBIT line taken as asserted (R20 to R22, R39, R51, R53, R161). -/

namespace Sys2Proof.Machine

/-! ### Lists that outcomes leave (R38, R39) -/

/-- Each occupancy of `m` stands in `l`, by its handle and its kind; its requesters may be fewer. -/
def Thinned (l m : List Occ) : Prop := ∀ p ∈ m, ∃ q ∈ l, q.handle = p.handle ∧ q.kind = p.kind

theorem Thinned.refl (l : List Occ) : Thinned l l := fun p hp => ⟨p, hp, rfl, rfl⟩

theorem Thinned.of_eq {l m : List Occ} (same : m = l) : Thinned l m := same ▸ Thinned.refl l

theorem Thinned.trans {l m n : List Occ} (first : Thinned l m) (second : Thinned m n) : Thinned l n := by
  intro p hp
  obtain ⟨q, hq, handle, kind⟩ := second p hp
  obtain ⟨r, hr, handle', kind'⟩ := first q hq
  exact ⟨r, hr, handle'.trans handle, kind'.trans kind⟩

theorem thinned_filter (f : Occ → Bool) (l : List Occ) : Thinned l (l.filter f) :=
  fun p hp => ⟨p, (List.mem_filter.1 hp).1, rfl, rfl⟩

theorem without_handle (o : Occ) (x : Sub) : (o.without x).handle = o.handle := by
  unfold Occ.without
  dsimp only
  split
  · split <;> rfl
  · rfl

/-- Only a merged beacon changes its kind as a requester leaves it (R38). -/
theorem without_kind {o : Occ} (x : Sub) (other : isBeacon o.kind = false) : (o.without x).kind = o.kind := by
  unfold Occ.without
  dsimp only
  split
  · split
    · rfl
    · simp [other]
  · rfl

/-- A withdrawal from occupancies that are no beacons. -/
theorem thinned_withdrawPlan (x : Sub) {p : Occ → Bool} (l : List Occ) (others : ∀ o, p o = true → isBeacon o.kind = false) :
    Thinned l (withdrawPlan x p l) := by
  intro o' ho'
  obtain ⟨o, ho, left⟩ := List.mem_filterMap.1 ho'
  refine ⟨o, ho, ?_⟩
  dsimp only at left
  split at left
  · next picked =>
    rw [Bool.and_eq_true] at picked
    split at left
    · contradiction
    · cases left
      exact ⟨(without_handle o x).symm, (without_kind x (others o picked.2)).symm⟩
  · cases left
    exact ⟨rfl, rfl⟩

theorem thinned_ite {l : List Occ} {c : Prop} [Decidable c] {s t : State} (hs : Thinned l s.rpl.plan)
    (ht : Thinned l t.rpl.plan) : Thinned l (if c then s else t).rpl.plan :=
  keeps_ite (P := fun t => Thinned l t.rpl.plan) hs ht

/-! ### Outcomes (chapters 8 and 9) -/

@[simp] theorem rpl_promote (s : State) (x : Sub) : (s.promote x).rpl = s.rpl := by
  unfold State.promote
  split
  · rfl
  · split <;> simp
@[simp] theorem rpl_leaveQueue (s : State) (x : Sub) (i : Fin 8) : (s.leaveQueue x i).rpl = s.rpl := by
  unfold State.leaveQueue
  split <;> simp
@[simp] theorem rpl_finishHead (s : State) (x : Sub) (st : OutState) (f : OutSlot → OutSlot) :
    (s.finishHead x st f).rpl = s.rpl := by
  unfold State.finishHead
  split <;> simp
@[simp] theorem rpl_attemptFailed (s : State) (x : Sub) (e : Frame) : (s.attemptFailed x e).rpl = s.rpl := by
  unfold State.attemptFailed
  split
  · rfl
  · dsimp only
    split <;> simp
@[simp] theorem rpl_receiptOutcome (s : State) (x : Sub) (ref : Ref) (w : Option (Fin 4)) (e : Ending) :
    (s.receiptOutcome x ref w e).rpl = s.rpl := by
  unfold State.receiptOutcome
  split
  · dsimp only
    split <;> rfl
  · rfl
@[simp] theorem rpl_upFinal (s : State) (k : Fin 4) (f : Frame) (o : UpOutcome) : (s.upFinal k f o).rpl = s.rpl := by
  unfold State.upFinal State.upWrite
  split <;> simp
@[simp] theorem rpl_lendOutcome (s : State) (x : Sub) (e : Ending) : (s.lendOutcome x e).rpl = s.rpl :=
  State.rpl_subSet s x _
@[simp] theorem rpl_windowMissed (s : State) (x : Sub) : (s.windowMissed x).rpl = s.rpl := by
  unfold State.windowMissed
  split <;> simp
@[simp] theorem rpl_pagingOutcome (s : State) (x : Sub) (e : Ending) : (s.pagingOutcome x e).rpl = s.rpl := by
  cases e <;> simp [State.pagingOutcome]
@[simp] theorem rpl_callOutcome (s : State) (k : Fin 4) (o : Occ) (e : Ending) : (s.callOutcome k o e).rpl = s.rpl := by
  unfold State.callOutcome
  split
  · split <;> rfl
  · exact rpl_upFinal s k _ _
  · exact rpl_upFinal s k _ _
  · rfl

/-- A segment in flight that is abandoned withdraws its TX-OPEN at the most (R161). -/
theorem thinned_abandon (s : State) (x : Sub) : Thinned s.rpl.plan (s.abandon x).rpl.plan := by
  unfold State.abandon
  split
  · have taken := thinned_withdrawPlan x s.rpl.plan
      (p := fun o => o.handle == (‹Flight›).handle && o.kind == .txOpen && !o.started) fun o picked => by
        simp only [Bool.and_eq_true, beq_iff_eq] at picked
        rw [picked.1.2]
        rfl
    dsimp only
    split <;> simpa [State.withdraw] using taken
  · exact Thinned.refl _

theorem thinned_segmentOutcome (s : State) (x : Sub) (h : Handle) (ref : Ref) (e : Ending) :
    Thinned s.rpl.plan (s.segmentOutcome x h ref e).rpl.plan := by
  have abandoned := thinned_abandon s x
  unfold State.segmentOutcome
  dsimp only
  split
  · exact Thinned.refl _
  · refine thinned_ite ?_ (Thinned.refl _)
    split
    · exact thinned_ite abandoned abandoned
    · exact abandoned
  · refine thinned_ite ?_ (Thinned.refl _)
    split
    · exact Thinned.of_eq (congrArg Rpl.plan (rpl_attemptFailed s x _))
    · exact Thinned.refl _

theorem thinned_deliverTo (s : State) (o : Occ) (e : Ending) (x : Sub) :
    Thinned s.rpl.plan (s.deliverTo o e x).rpl.plan := by
  unfold State.deliverTo
  split
  · exact Thinned.refl _
  · next w _ =>
    have paged : (if w.kind = .paging then s.pagingOutcome x e else s).rpl = s.rpl := by
      split
      · exact rpl_pagingOutcome s x e
      · rfl
    dsimp only
    generalize (if w.kind = .paging then s.pagingOutcome x e else s) = t at paged
    rw [← paged]
    split
    · exact Thinned.of_eq (congrArg Rpl.plan (rpl_callOutcome t _ o e))
    · exact thinned_segmentOutcome t x _ _ e
    · exact Thinned.of_eq (congrArg Rpl.plan (rpl_receiptOutcome t x _ _ e))
    · exact Thinned.refl _

/-- An outcome delivered enters nothing into the list. -/
theorem thinned_deliver (s : State) (o : Occ) (e : Ending) : Thinned s.rpl.plan (s.deliver o e).rpl.plan :=
  (thinned_deliverTo s o e .a).trans (thinned_deliverTo _ o e .b)

theorem thinned_foldl {α : Type} {f : State → α → State} (turn : ∀ s a, Thinned s.rpl.plan (f s a).rpl.plan) (l : List α)
    (s : State) : Thinned s.rpl.plan (l.foldl f s).rpl.plan :=
  keeps_foldl (P := fun t => Thinned s.rpl.plan t.rpl.plan) l (fun a _ t ht => ht.trans (turn t a)) (Thinned.refl _)

theorem thinned_revoke (s : State) (c : Fin 3) (n : Nat) : Thinned s.rpl.plan (s.revoke c n).rpl.plan :=
  (thinned_filter _ _).trans (thinned_foldl (fun t (p : Occ × Denial) => thinned_deliver t p.1 _) _ _)

/-! ### Search passes and allocation requests (R20 to R22, R64, R65) -/

@[simp] theorem rpl_dropProbes (s : State) (x : Sub) : (s.dropProbes x).rpl = s.rpl := by
  refine keeps_foldl (P := fun t => t.rpl = s.rpl) hostRecs (fun r _ t ht => ?_) rfl
  unfold State.completeProbe
  split <;> exact ht
@[simp] theorem rpl_enterLost (s : State) (x : Sub) (c : ServiceCause) : (s.enterLost x c).rpl = s.rpl := by
  unfold State.enterLost
  simp

theorem rpl_tryJoin {s t : State} {r : Role} {x : Sub} {k : Key} (joined : s.tryJoin r x k = some t) : t.rpl = s.rpl := by
  unfold State.tryJoin at joined
  split at joined
  · split at joined
    · cases joined; rfl
    · split at joined
      · cases joined; rfl
      · contradiction
  · split at joined
    · cases joined; rfl
    · contradiction

@[simp] theorem rpl_attempt (s : State) (x : Sub) (r : Fin 18) (rest : List (Fin 18)) : (s.attempt x r rest).rpl = s.rpl := by
  unfold State.attempt
  dsimp only
  split
  · next joined => exact (rpl_tryJoin joined).trans (State.rpl_modSbc _ _ _)
  · rfl

theorem rpl_tryRecords {s t : State} {x : Sub} {l : List (Fin 18)} (tried : s.tryRecords x l = some t) : t.rpl = s.rpl := by
  induction l with
  | nil => contradiction
  | cons r rs ih =>
    rw [State.tryRecords] at tried
    split at tried
    · cases tried
      exact rpl_attempt s x r rs
    · exact ih tried

@[simp] theorem rpl_beginPass (s : State) (x : Sub) : (s.beginPass x).rpl = s.rpl := by
  unfold State.beginPass
  dsimp only
  split
  · next tried => exact (rpl_tryRecords tried).trans (State.rpl_modSbc _ _ _)
  · simp
@[simp] theorem rpl_nextAttempt (s : State) (x : Sub) : (s.nextAttempt x).rpl = s.rpl := by
  unfold State.nextAttempt
  split
  · rfl
  · dsimp only
    split
    · next tried => exact (rpl_tryRecords tried).trans (State.rpl_modSbc _ _ _)
    · split <;> simp
@[simp] theorem rpl_tellPreempted (s : State) (u : User) (k : Key) : (s.tellPreempted u k).rpl = s.rpl := by
  unfold State.tellPreempted State.searchPreempted
  split
  · simp
  · rfl
  · rfl

theorem thinned_allocate (s : State) (r : Role) (x : Sub) (k : Key) : Thinned s.rpl.plan (s.allocate r x k).rpl.plan := by
  unfold State.allocate
  split
  · next joined => exact Thinned.of_eq (congrArg Rpl.plan (rpl_tryJoin joined))
  · split
    · exact Thinned.refl _
    · split
      · next c u _ =>
        have told : ((s.modCtx c fun t => { t with users := [] }).tellPreempted u (s.ctx c).key).rpl.plan = s.rpl.plan := by
          simp
        exact told ▸ thinned_revoke _ c _
      · exact Thinned.refl _

/-- The requests retried enter nothing into the list. -/
theorem thinned_retried (s : State) : Thinned s.rpl.plan s.retried.rpl.plan := by
  unfold State.retried
  split
  · refine thinned_foldl (fun t o => ?_) retryOrder s
    split
    · split
      · exact thinned_allocate (t.cancelDeferred _ _) _ _ _
      · exact Thinned.refl _
    · exact Thinned.refl _
  · exact Thinned.refl _

/-! ### The line taken as asserted (R53) -/

/-- One transmit's turn as the line is taken: it leaves the list, and its requesters are told. -/
def State.endTransmit (s : State) (o : Occ) : State :=
  let s := s.dropOccs fun p => p.handle == o.handle
  if o.started then (s.send (.idle o.handle)).deliver o (.aborted true) else s.deliver o (.denied .inhibit)

theorem inhibitOn_eq (s : State) : s.inhibitOn =
    (s.rpl.plan.filter fun o => isTransmit o.kind).foldl State.endTransmit { s with rpl := { s.rpl with inhibit := true } } :=
  rfl

theorem thinned_endTransmit (s : State) (o : Occ) :
    Thinned (s.rpl.plan.filter fun p => !p.handle == o.handle) (s.endTransmit o).rpl.plan := by
  unfold State.endTransmit
  dsimp only
  split
  · exact thinned_deliver ((s.dropOccs fun p => p.handle == o.handle).send (.idle o.handle)) o _
  · exact thinned_deliver (s.dropOccs fun p => p.handle == o.handle) o _

theorem outer_endTransmit (s : State) (o : Occ) : ∃ l, (s.endTransmit o).outer = { s.outer with sent := l } := by
  unfold State.endTransmit
  dsimp only
  split
  · exact ⟨_, outer_deliver _ o _⟩
  · exact ⟨_, outer_deliver _ o _⟩

/-- Each transmit of the list has its turn: once all have had theirs none is left. -/
theorem noTransmit_of_turns (l : List Occ) {s : State}
    (named : ∀ p ∈ s.rpl.plan, isTransmit p.kind = true → ∃ o ∈ l, o.handle = p.handle) :
    ∀ p ∈ (l.foldl State.endTransmit s).rpl.plan, isTransmit p.kind = false := by
  induction l generalizing s with
  | nil =>
    intro p hp
    by_contra sends
    obtain ⟨o, ho, -⟩ := named p hp (Bool.eq_true_of_not_eq_false sends)
    contradiction
  | cons o l ih =>
    refine ih fun p hp sends => ?_
    obtain ⟨q, hq, handle, kind⟩ := thinned_endTransmit s o p hp
    obtain ⟨stood, other⟩ := List.mem_filter.1 hq
    obtain ⟨r, hr, same⟩ := named q stood (kind ▸ sends)
    rcases List.mem_cons.1 hr with rfl | later
    · simp [same] at other
    · exact ⟨r, later, same.trans handle⟩

theorem noTransmit_inhibitOn (s : State) : ∀ p ∈ s.inhibitOn.rpl.plan, isTransmit p.kind = false := by
  rw [inhibitOn_eq]
  exact noTransmit_of_turns _ fun p hp sends => ⟨p, List.mem_filter.2 ⟨hp, sends⟩, rfl⟩

/-- Outside the blocks the line as taken and the commands sent alone change. -/
theorem outer_inhibitOn (s : State) : ∃ l, s.inhibitOn.outer = { s.outer with inhibit := true, sent := l } := by
  rw [inhibitOn_eq]
  refine keeps_foldl (P := fun t => ∃ l, t.outer = { s.outer with inhibit := true, sent := l }) _
    (fun o _ t ⟨l, same⟩ => ?_) ⟨s.rpl.sent, rfl⟩
  obtain ⟨l', turn⟩ := outer_endTransmit t o
  exact ⟨l', by rw [turn, same]⟩

theorem pins_finish (s0 s : State) : (s0.finish s).pins = s.retried.pins := by
  obtain ⟨q, fin⟩ := finish_eq s0 s; rw [fin]; rfl

theorem execTxInhibitAssert_eq {s u : State} {dt : Nat} (time : u = s.advance dt) :
    execTxInhibitAssert dt s = .next
      (if u.working && !u.rpl.inhibit then (u.withLine true).finish (u.withLine true).inhibitOn else u.withLine true) := by
  subst time
  rfl

end Sys2Proof.Machine

open Sys2Proof Sys2Proof.Machine

/-- Settles O22: each transmit leaves at its turn, and neither the outcomes told nor the requests retried enter another. -/
theorem txInhibitAssertEndsTransmits : Obligations.TxInhibitAssertEndsTransmits := by
  intro s u dt time
  refine ⟨fun working released => ?_, fun idle => ?_⟩
  · have runs := execTxInhibitAssert_eq time
    rw [working, released, Bool.not_false, Bool.and_self, if_pos rfl] at runs
    have exm : u.exm = s.exm := time ▸ exm_advance dt s
    obtain ⟨l, on⟩ := outer_inhibitOn (u.withLine true)
    have outer := (outer_retried (u.withLine true).inhibitOn).trans on
    refine ⟨_, runs, ?_⟩
    rw [pins_finish, rpl_finish, exm_finish]
    refine ⟨congrArg (fun z => z.pins.txInhibit) outer, congrArg Outer.inhibit outer, fun p hp => ?_, ?_, ?_, ?_⟩
    · obtain ⟨q, hq, -, kind⟩ := thinned_retried (u.withLine true).inhibitOn p hp
      rw [← kind]
      exact noTransmit_inhibitOn _ q hq
    · exact (congrArg Outer.mem outer).trans (congrArg Exm.mem exm)
    · exact (congrArg Outer.scan outer).trans (congrArg Exm.scan exm)
    · exact (congrArg Outer.run outer).trans (congrArg Exm.run exm)
  · have idles : ¬(u.working && !u.rpl.inhibit) = true := by
      rcases idle with off | on
      · simp [off]
      · simp [on]
    exact (execTxInhibitAssert_eq time).trans (by rw [if_neg idles]; rfl)
end

section
/-! SUPPORT. STOP, block by block: what the outcomes of the emptied plan list leave standing, the queues failed, the calls ended,
and what is left of a subscription (R55, R77, R94, R147, R151, R160, R193). -/

namespace Sys2Proof.Machine

/-! ### Calls that keep their state (R131, R149, R150) -/

/-- Each call context is in the same state with the same cause. -/
def SameCalls (s t : State) : Prop :=
  ∀ k, (t.call k).part.state = (s.call k).part.state ∧ (t.call k).part.cause = (s.call k).part.cause

theorem SameCalls.refl (s : State) : SameCalls s s := fun _ => ⟨rfl, rfl⟩

theorem SameCalls.trans {s t u : State} (first : SameCalls s t) (second : SameCalls t u) : SameCalls s u :=
  fun k => ⟨(second k).1.trans (first k).1, (second k).2.trans (first k).2⟩

theorem SameCalls.of_clu {s t : State} (same : t.clu = s.clu) : SameCalls s t := fun k => by
  unfold State.call
  rw [same]
  exact ⟨rfl, rfl⟩

theorem sameCalls_ite {s t u : State} {c : Prop} [Decidable c] (ht : SameCalls s t) (hu : SameCalls s u) :
    SameCalls s (if c then t else u) := keeps_ite ht hu

theorem sameCalls_modCall (s : State) (k : Fin 4) {f : Call → Call}
    (keeps : ∀ c, (f c).part.state = c.part.state ∧ (f c).part.cause = c.part.cause) : SameCalls s (s.modCall k f) := by
  intro j
  by_cases here : j = k
  · subst here
    rw [State.call_modCall_same]
    exact keeps _
  · rw [State.call_modCall_other s here]
    exact ⟨rfl, rfl⟩

theorem sameCalls_upFinal (s : State) (k : Fin 4) (f : Frame) (o : UpOutcome) : SameCalls s (s.upFinal k f o) := by
  have written := sameCalls_modCall s k (f := fun c => { c with part := { c.part with
    status := c.part.status.set (cellIndex f) { frame := f, outcome := o }
    ups := c.part.ups.add o
    change := c.part.change + 1 } }) fun _ => ⟨rfl, rfl⟩
  unfold State.upFinal State.upWrite State.callStatusUpd State.raiseIf
  exact sameCalls_ite (sameCalls_ite written written) (SameCalls.refl s)

theorem sameCalls_callOutcome (s : State) (k : Fin 4) (o : Occ) (e : Ending) : SameCalls s (s.callOutcome k o e) := by
  unfold State.callOutcome
  split
  · exact sameCalls_ite (sameCalls_modCall s k fun _ => ⟨rfl, rfl⟩) (SameCalls.refl s)
  · exact sameCalls_upFinal s k _ _
  · exact sameCalls_upFinal s k _ _
  · exact SameCalls.refl s

theorem sameCalls_downWrite (s : State) (k : Fin 4) (p : DownPending) : SameCalls s (s.downWrite k p) := by
  unfold State.downWrite
  split
  · exact SameCalls.refl s
  · next o payload _ =>
    have written := sameCalls_modCall s k (f := fun c => { c with
      cells := c.cells.set (cellIndex p.frame) ((c.cells[cellIndex p.frame]).write p o payload (s.downTime p))
      pends := c.pends.filter fun q => q.frame != p.frame }) fun _ => ⟨rfl, rfl⟩
    exact written.trans (sameCalls_modCall _ k (f := fun c => { c with part := { c.part with
      downs := c.part.downs.add o
      change := c.part.change + 1 } }) fun _ => ⟨rfl, rfl⟩)

/-! ### The outcomes of the emptied list (R55, R156, R160) -/

@[simp] theorem txu_upFinal (s : State) (k : Fin 4) (f : Frame) (o : UpOutcome) : (s.upFinal k f o).txu = s.txu := by
  unfold State.upFinal State.upWrite
  split <;> simp
@[simp] theorem txu_pagingOutcome (s : State) (x : Sub) (e : Ending) : (s.pagingOutcome x e).txu = s.txu := by
  have missed (t : State) : (t.windowMissed x).txu = t.txu := by
    unfold State.windowMissed
    split <;> simp
  cases e <;> simp [State.pagingOutcome, State.lendOutcome, missed]
@[simp] theorem txu_callOutcome (s : State) (k : Fin 4) (o : Occ) (e : Ending) : (s.callOutcome k o e).txu = s.txu := by
  unfold State.callOutcome
  split
  · split <;> rfl
  · exact txu_upFinal s k _ _
  · exact txu_upFinal s k _ _
  · rfl

@[simp] theorem slot_slotUpd_other (s : State) {i j : Fin 8} (h : j ≠ i) (b : Bool) (f : OutSlot → OutSlot) :
    (s.slotUpd i b f).slot j = s.slot j := by
  have kept := State.slot_modSlot_other s h fun o => { f o with change := o.change + 1 }
  cases b
  · exact kept
  · exact kept

/-- What stands of state `u` while its occupancies end ABORTED, no withdraw pending: the calls' states and the send queues. -/
structure Standing (u t : State) : Prop where
  calls : SameCalls u t
  queue : ∀ x, (t.side x).queue = (u.side x).queue
  quiet : ∀ i, (t.slot i).withdraw = false

namespace Standing

variable {u s t : State}

theorem of_calls (h : Standing u s) (same : SameCalls s t) (txu : t.txu = s.txu) : Standing u t := by
  refine ⟨h.calls.trans same, fun x => ?_, fun i => ?_⟩
  · rw [State.side, txu]
    exact h.queue x
  · rw [State.slot, txu]
    exact h.quiet i

theorem modSide (h : Standing u s) {x : Sub} {f : SendSide → SendSide} (keeps : ∀ d, (f d).queue = d.queue) :
    Standing u (s.modSide x f) := by
  refine ⟨h.calls, fun y => ?_, h.quiet⟩
  by_cases same : y = x
  · subst same
    rw [State.side_modSide_same, keeps]
    exact h.queue y
  · rw [State.side_modSide_other s same]
    exact h.queue y

theorem slotUpd (h : Standing u s) {i : Fin 8} {b : Bool} {f : OutSlot → OutSlot}
    (keeps : ∀ o, (f o).withdraw = o.withdraw) : Standing u (s.slotUpd i b f) := by
  refine ⟨h.calls.trans (SameCalls.of_clu (by simp)), fun x => ?_, fun j => ?_⟩
  · rw [State.side_slotUpd]
    exact h.queue x
  · by_cases same : j = i
    · subst same
      rw [State.slot_slotUpd_same]
      exact (keeps _).trans (h.quiet j)
    · rw [slot_slotUpd_other s same]
      exact h.quiet j

/-- With no withdraw pending a failed attempt leaves the head in its queue. -/
theorem attemptFailed (h : Standing u s) (x : Sub) (e : Frame) : Standing u (s.attemptFailed x e) := by
  unfold State.attemptFailed
  split
  · exact h
  · next i _ =>
    dsimp only
    rw [if_neg (by rw [State.slot_modSide, h.quiet i]; decide)]
    refine Standing.modSide (Standing.slotUpd (Standing.modSide h ?_) ?_) ?_
    · intro _; rfl
    · intro _; rfl
    · intro _; rfl

theorem segmentOutcome (h : Standing u s) (x : Sub) (hd : Handle) (ref : Ref) (b : Bool) :
    Standing u (s.segmentOutcome x hd ref (.aborted b)) := by
  unfold State.segmentOutcome
  dsimp only
  refine keeps_ite (P := Standing u) ?_ h
  split
  · exact h.attemptFailed x _
  · exact h

theorem deliverTo (h : Standing u s) (o : Occ) (b : Bool) (x : Sub) : Standing u (s.deliverTo o (.aborted b) x) := by
  unfold State.deliverTo
  split
  · exact h
  · next w _ =>
    have paged := keeps_ite (P := Standing u) (c := w.kind = .paging)
      (h.of_calls (SameCalls.of_clu (clu_pagingOutcome s x (.aborted b))) (txu_pagingOutcome s x _)) h
    dsimp only
    generalize (if w.kind = .paging then s.pagingOutcome x (.aborted b) else s) = t at paged
    split
    · exact paged.of_calls (sameCalls_callOutcome t _ o _) (txu_callOutcome t _ o _)
    · exact paged.segmentOutcome x _ _ b
    · unfold State.receiptOutcome
      split
      · contradiction
      · exact paged
    · exact paged

end Standing

/-- A state with its withdraws settled: what stands is all but they. -/
theorem standing_dropWithdraws (u : State) : Standing u u.dropWithdraws := by
  obtain ⟨v, same⟩ := dropWithdraws_frame u
  refine ⟨SameCalls.of_clu (by rw [same]), fun x => ?_, fun i => by rw [slot_dropWithdraws]⟩
  have side : ∀ (l : List (Fin 8)) (s : State),
      ((l.foldl (fun s i => s.modSlot i fun o => { o with withdraw := false }) s).side x) = s.side x := fun l s =>
    keeps_foldl (P := fun t => t.side x = s.side x) (f := fun s i => s.modSlot i fun o => { o with withdraw := false })
      l (fun _ _ _ ht => ht) rfl
  exact congrArg SendSide.queue (side allSlots u)

theorem standing_stopPlan {u s : State} (h : Standing u s) : Standing u s.stopPlan :=
  keeps_foldl s.rpl.plan (fun o _ _ ht => (ht.deliverTo o false .a).deliverTo o false .b)
    (h.of_calls (SameCalls.of_clu rfl) rfl)

/-! ### The queues failed (R151, R193) -/

/-- The slot is FAILED with cause STOPPED, its final time `now` and no withdraw pending. -/
def OutSlot.stoppedAt (o : OutSlot) (now : Nat) : Prop :=
  o.state = .failed ∧ o.cause = .stopped ∧ o.withdraw = false ∧ o.final = now

/-- Slots failed one after another: each of those listed is then FAILED, and one that was stays so. -/
theorem stoppedAt_foldl {now : Nat} {f : Fin 8 → OutSlot → OutSlot} (fails : ∀ j o, (f j o).stoppedAt now) {i : Fin 8}
    (l : List (Fin 8)) {s : State} (h : i ∈ l ∨ (s.slot i).stoppedAt now) :
    ((l.foldl (fun t j => t.slotUpd j true (f j)) s).slot i).stoppedAt now := by
  induction l generalizing s with
  | nil => exact h.resolve_left List.not_mem_nil
  | cons j l ih =>
    refine ih ?_
    by_cases here : i = j
    · subst here
      rw [State.slot_slotUpd_same]
      exact .inr (fails i _)
    · rw [slot_slotUpd_other s here]
      exact h.imp_left fun mem => (List.mem_cons.1 mem).resolve_left here

/-- The cell tables and the power controller stand, and no occupancy has entered an empty plan list. -/
structure SameBlocks (s t : State) : Prop where
  cmu  : t.cmu = s.cmu
  pwc  : t.pwc = s.pwc
  plan : s.rpl.plan = [] → t.rpl.plan = []

namespace SameBlocks

variable {s t u : State}

theorem refl (s : State) : SameBlocks s s := ⟨rfl, rfl, id⟩

theorem trans (first : SameBlocks s t) (second : SameBlocks t u) : SameBlocks s u :=
  ⟨second.cmu.trans first.cmu, second.pwc.trans first.pwc, fun h => second.plan (first.plan h)⟩

theorem withdraw (s : State) (x : Sub) (p : Occ → Bool) : SameBlocks s (s.withdraw x p) :=
  ⟨rfl, rfl, fun h => by simp [State.withdraw, withdrawPlan, h]⟩

end SameBlocks

/-- A fold over slots writes the slots and the attention bits alone. -/
theorem foldl_slotUpd_frame (f : Fin 8 → OutSlot → OutSlot) (l : List (Fin 8)) (s : State) : ∃ v e,
    l.foldl (fun t i => t.slotUpd i true (f i)) s = { s with txu := { s.txu with slots := v }, exm := e } := by
  induction l generalizing s with
  | nil => exact ⟨s.txu.slots, s.exm, rfl⟩
  | cons i l ih =>
    obtain ⟨v, e, same⟩ := ih (s.slotUpd i true (f i))
    exact ⟨v, e, same⟩

/-- A queue failed: a withdrawal, its slots one after another, then the side's own record. -/
theorem failQueue_eq (s : State) (x : Sub) (c : FailCause) : ∃ (p : Occ → Bool) (f : Fin 8 → OutSlot → OutSlot)
    (g : SendSide → SendSide), (∀ d, (g d).queue = []) ∧ (c = .stopped → ∀ i o, (f i o).stoppedAt s.now) ∧
      s.failQueue x c = ((s.side x).queue.foldl (fun t i => t.slotUpd i true (f i)) (s.withdraw x p)).modSide x g := by
  unfold State.failQueue
  dsimp only
  exact ⟨_, fun i o => { o.finish .failed s.now with
    cause := c
    attempts := if s.head x = some i then o.attempts - _ else o.attempts }, _, fun _ => rfl,
    fun stopped _ _ => ⟨rfl, stopped, rfl, rfl⟩, rfl⟩

theorem stoppedAt_failQueue {s : State} (x : Sub) {i : Fin 8} (h : i ∈ (s.side x).queue ∨ (s.slot i).stoppedAt s.now) :
    ((s.failQueue x .stopped).slot i).stoppedAt s.now := by
  obtain ⟨p, f, g, -, stops, same⟩ := failQueue_eq s x .stopped
  rw [same, State.slot_modSide]
  exact stoppedAt_foldl (stops rfl) _ h

theorem sameBlocks_failQueue (s : State) (x : Sub) (c : FailCause) :
    SameBlocks s (s.failQueue x c) ∧ SameCalls s (s.failQueue x c) := by
  obtain ⟨p, f, g, -, -, same⟩ := failQueue_eq s x c
  obtain ⟨v, e, slots⟩ := foldl_slotUpd_frame f (s.side x).queue (s.withdraw x p)
  rw [same, slots]
  exact ⟨(SameBlocks.withdraw s x p).trans ⟨rfl, rfl, id⟩, SameCalls.of_clu rfl⟩

theorem queue_failQueue (s : State) (x : Sub) (c : FailCause) (y : Sub) :
    ((s.failQueue x c).side y).queue = if y = x then [] else (s.side y).queue := by
  obtain ⟨p, f, g, empty, -, same⟩ := failQueue_eq s x c
  obtain ⟨v, e, slots⟩ := foldl_slotUpd_frame f (s.side x).queue (s.withdraw x p)
  rw [same, slots]
  by_cases here : y = x
  · rw [if_pos here, here, State.side_modSide_same, empty]
  · rw [if_neg here, State.side_modSide_other _ here]
    rfl

/-! ### The calls ended (R131, R147) -/

theorem steady_pwc (v : Pwc) : Steady fun t => t.pwc = v :=
  ⟨id, id, id, fun _ => id, fun _ => id⟩

/-- What the pieces of a call's end leave: the blocks, the calls' states and the text messages. -/
structure CallKept (s t : State) : Prop extends SameBlocks s t where
  calls : SameCalls s t
  txu   : t.txu = s.txu

namespace CallKept

variable {s t u : State}

theorem refl (s : State) : CallKept s s := ⟨SameBlocks.refl s, SameCalls.refl s, rfl⟩

theorem trans (first : CallKept s t) (second : CallKept t u) : CallKept s u :=
  ⟨first.toSameBlocks.trans second.toSameBlocks, first.calls.trans second.calls, second.txu.trans first.txu⟩

theorem ite {c : Prop} [Decidable c] (ht : CallKept s t) (hu : CallKept s u) : CallKept s (if c then t else u) :=
  keeps_ite ht hu

theorem foldl {α : Type} {f : State → α → State} (turn : ∀ s a, CallKept s (f s a)) (l : List α) (s : State) :
    CallKept s (l.foldl f s) :=
  keeps_foldl l (fun a _ t ht => ht.trans (turn t a)) (refl s)

theorem withdraw (s : State) (x : Sub) (p : Occ → Bool) : CallKept s (s.withdraw x p) :=
  ⟨SameBlocks.withdraw s x p, SameCalls.of_clu rfl, rfl⟩

theorem modMachine (s : State) (x : Sub) (f : HoMachine → HoMachine) : CallKept s (s.modMachine x f) :=
  ⟨⟨rfl, rfl, id⟩, SameCalls.of_clu rfl, rfl⟩

theorem modCall (s : State) (k : Fin 4) {f : Call → Call}
    (keeps : ∀ c, (f c).part.state = c.part.state ∧ (f c).part.cause = c.part.cause) : CallKept s (s.modCall k f) :=
  ⟨⟨rfl, rfl, id⟩, sameCalls_modCall s k keeps, rfl⟩

theorem flush (s : State) (k : Fin 4) (p : DownPending → Bool) : CallKept s (s.flush k p) :=
  foldl (fun t q => by
    refine ⟨?_, sameCalls_downWrite t k q, ?_⟩
    · unfold State.downWrite
      split
      · exact SameBlocks.refl t
      · exact ⟨rfl, rfl, id⟩
    · unfold State.downWrite
      split <;> rfl) _ s

theorem dropUplinks (s : State) (k : Fin 4) : CallKept s (s.dropUplinks k) :=
  foldl (fun t o => ⟨⟨(steady_cmu _).upFinal rfl, (steady_pwc _).upFinal rfl, fun h => by simpa using h⟩,
    sameCalls_upFinal t k _ _, txu_upFinal t k _ _⟩) _ s

theorem unstage (s : State) (k : Fin 4) : CallKept s (s.unstage k) :=
  foldl (fun t c => by
    split
    · exact ite ⟨⟨rfl, rfl, id⟩, SameCalls.of_clu rfl, rfl⟩ (refl t)
    · exact refl t) allCtx s

end CallKept

/-- What a call's end does up to the write of its record. -/
theorem closeCall_eq (s : State) (k : Fin 4) (cause : CallCause) (byte : BitVec 8) : ∃ t n, CallKept s t ∧
    s.closeCall k cause byte =
      t.callUpd k fun r => { r with state := .ended, cause := cause, causeByte := byte, endTime := n } := by
  have withdrawn (x : Sub) (p : Occ → Bool) : CallKept s (((s.flush k s.downReady).dropUplinks k).withdraw x p) :=
    (CallKept.flush s k s.downReady).trans ((CallKept.dropUplinks _ k).trans (CallKept.withdraw _ x p))
  have machine (x : Sub) (p : Occ → Bool) := CallKept.ite (c := s.holding k = true)
    ((withdrawn x p).trans (CallKept.modMachine _ x fun m => { m with claims := [] })) (withdrawn x p)
  have kept := machine (s.call k).part.owner (ofCall (s.call k).part.owner k (s.holding k))
  unfold State.closeCall
  dsimp only
  generalize (if s.holding k = true then _ else _ : State) = t at kept ⊢
  have cleared := CallKept.modCall t k
    (f := fun c => { c with ring := none, access := none, release := none, bases := [], pends := [] }) fun _ => ⟨rfl, rfl⟩
  exact ⟨_, _, (kept.trans cleared).trans (CallKept.unstage _ k), rfl⟩

theorem closeCall_kept (s : State) (k : Fin 4) (cause : CallCause) (byte : BitVec 8) :
    SameBlocks s (s.closeCall k cause byte) ∧ (s.closeCall k cause byte).txu = s.txu := by
  obtain ⟨t, n, kept, same⟩ := closeCall_eq s k cause byte
  rw [same]
  exact ⟨kept.toSameBlocks.trans ⟨rfl, rfl, id⟩, kept.txu⟩

theorem call_closeCall_same (s : State) (k : Fin 4) (cause : CallCause) (byte : BitVec 8) :
    ((s.closeCall k cause byte).call k).part.state = .ended ∧ ((s.closeCall k cause byte).call k).part.cause = cause := by
  obtain ⟨t, n, -, same⟩ := closeCall_eq s k cause byte
  rw [same, State.call_callUpd_same]
  exact ⟨rfl, rfl⟩

theorem call_closeCall_other (s : State) {j k : Fin 4} (other : j ≠ k) (cause : CallCause) (byte : BitVec 8) :
    ((s.closeCall k cause byte).call j).part.state = (s.call j).part.state ∧
      ((s.closeCall k cause byte).call j).part.cause = (s.call j).part.cause := by
  obtain ⟨t, n, kept, same⟩ := closeCall_eq s k cause byte
  rw [same, State.call_callUpd_other t other]
  exact kept.calls j

/-- The call context is radio-holding or RINGING: STOP ends it. -/
def State.live (s : State) (k : Fin 4) : Bool := s.holding k || (s.call k).part.state == .ringing

theorem live_iff {s : State} {k : Fin 4} :
    s.live k = true ↔ radioHolding (s.call k).part.state = true ∨ (s.call k).part.state = .ringing := by
  simp [State.live, State.holding]

theorem live_eq_false_iff {s : State} {k : Fin 4} :
    s.live k = false ↔ radioHolding (s.call k).part.state = false ∧ (s.call k).part.state ≠ .ringing := by
  simp [State.live, State.holding]

/-- In `t` the call is ENDED, stopped, where it was live in `s`, and keeps its state and its cause where it was not. -/
def CallStopped (s t : State) (k : Fin 4) : Prop :=
  if s.live k = true
  then (t.call k).part.state = .ended ∧ (t.call k).part.cause = .stopped
  else (t.call k).part.state = (s.call k).part.state ∧ (t.call k).part.cause = (s.call k).part.cause

theorem SameCalls.live {s t : State} (same : SameCalls s t) (k : Fin 4) : t.live k = s.live k := by
  unfold State.live State.holding
  rw [(same k).1]

theorem CallStopped.of_same {s t u : State} (same : SameCalls s t) {k : Fin 4} (h : CallStopped t u k) :
    CallStopped s u k := by
  unfold CallStopped at h ⊢
  rwa [same.live, (same k).1, (same k).2] at h

theorem CallStopped.to_same {s t u : State} {k : Fin 4} (h : CallStopped s t k) (same : SameCalls t u) :
    CallStopped s u k := by
  unfold CallStopped at h ⊢
  rwa [(same k).1, (same k).2]

/-- No call is live once stopped. -/
theorem CallStopped.not_live {s t : State} {k : Fin 4} (h : CallStopped s t k) : t.live k = false := by
  unfold CallStopped at h
  unfold State.live State.holding
  split at h
  · rw [h.1]
    rfl
  · next off =>
    rw [h.1]
    exact Bool.eq_false_iff.2 off

/-- The end of one call of the part that STOP finds live. -/
def State.stopCall (s : State) (k : Fin 4) : State := if s.live k then s.closeCall k .stopped 0 else s

theorem stopCalls_eq (s : State) : s.stopCalls = allCalls.foldl State.stopCall s := rfl

theorem callStopped_stopCall (s : State) (k : Fin 4) : CallStopped s (s.stopCall k) k := by
  unfold CallStopped State.stopCall
  split
  · exact call_closeCall_same s k .stopped 0
  · exact ⟨rfl, rfl⟩

theorem call_stopCall_other (s : State) {j k : Fin 4} (other : j ≠ k) :
    ((s.stopCall k).call j).part.state = (s.call j).part.state ∧
      ((s.stopCall k).call j).part.cause = (s.call j).part.cause := by
  unfold State.stopCall
  split
  · exact call_closeCall_other s other .stopped 0
  · exact ⟨rfl, rfl⟩

theorem sameBlocks_stopCalls (s : State) : SameBlocks s s.stopCalls ∧ s.stopCalls.txu = s.txu :=
  keeps_foldl (P := fun t => SameBlocks s t ∧ t.txu = s.txu) (f := State.stopCall) allCalls (fun k _ t ht => by
    obtain ⟨blocks, txu⟩ := closeCall_kept t k .stopped 0
    exact keeps_ite (P := fun t => SameBlocks s t ∧ t.txu = s.txu) ⟨ht.1.trans blocks, txu.trans ht.2⟩ ht)
    ⟨SameBlocks.refl s, rfl⟩

/-- The calls not listed keep their states. -/
theorem call_foldl_stopCall_other {k : Fin 4} {l : List (Fin 4)} (other : k ∉ l) (s : State) :
    ((l.foldl State.stopCall s).call k).part.state = (s.call k).part.state ∧
      ((l.foldl State.stopCall s).call k).part.cause = (s.call k).part.cause :=
  keeps_foldl (P := fun t => (t.call k).part.state = (s.call k).part.state ∧ (t.call k).part.cause = (s.call k).part.cause)
    l (fun j listed t ht => by
      obtain ⟨state, cause⟩ := call_stopCall_other t (k := j) (ne_of_mem_of_not_mem listed other).symm
      exact ⟨state.trans ht.1, cause.trans ht.2⟩) ⟨rfl, rfl⟩

/-- Each call has its turn once: those before it and those after it leave it. -/
theorem callStopped_stopCalls (s : State) (k : Fin 4) : CallStopped s s.stopCalls k := by
  obtain ⟨before, after, split, unlisted, unlisted'⟩ :
      ∃ l m : List (Fin 4), allCalls = l ++ k :: m ∧ k ∉ l ∧ k ∉ m := by
    refine ⟨allCalls.take k.val, allCalls.drop (k.val + 1), ?_⟩
    revert k
    decide
  rw [stopCalls_eq, split, List.foldl_append, List.foldl_cons]
  have first := call_foldl_stopCall_other unlisted s
  generalize before.foldl State.stopCall s = t at first
  have last := call_foldl_stopCall_other unlisted' (t.stopCall k)
  have stopped := callStopped_stopCall t k
  unfold CallStopped at stopped ⊢
  unfold State.live State.holding at stopped ⊢
  rwa [last.1, last.2, ← first.1, ← first.2]

/-! ### What is left of a subscription (R94, R147) -/

/-- The record with its pending probe completed with NONE. -/
def CellRec.settled (c : CellRec) : CellRec :=
  match c.probe with
  | some p => { c with probeLevel := none, probeTaken := p, probe := none, change := c.change + 1 }
  | none => c

theorem CellRec.settled_of_none {c : CellRec} (quiet : c.probe = none) : c.settled = c := by
  rw [CellRec.settled, quiet]

theorem CellRec.settled_of_some {c : CellRec} {p : Stamp} (pending : c.probe = some p) :
    c.settled = { c with probeLevel := none, probeTaken := p, probe := none, change := c.change + 1 } := by
  rw [CellRec.settled, pending]

theorem CellRec.settled_settled (c : CellRec) : c.settled.settled = c.settled := by
  cases pending : c.probe with
  | none => rw [CellRec.settled_of_none pending, CellRec.settled_of_none pending]
  | some p =>
    rw [CellRec.settled_of_some pending]
    exact CellRec.settled_of_none rfl

/-- The records of `l` of subscription `x` have their probes completed; everything but the cell records and the host's marks
stands. -/
structure ProbesSettled (x : Sub) (l : List (Fin 18)) (s t : State) : Prop where
  frame   : ∃ v e, t = { s with cmu := v, exm := e }
  pointer : ∀ y, (t.cmu.get y).pointer = (s.cmu.get y).pointer
  cell    : ∀ y r, t.cell y r = if y = x ∧ r ∈ l then (s.cell y r).settled else s.cell y r

theorem cell_cellUpd_other (s : State) (x : Sub) {r q : Fin 18} (h : q ≠ r) (f : CellRec → CellRec) :
    (s.cellUpd x r f).cell x q = s.cell x q :=
  State.cell_modCell_other s x h fun c => { f c with change := c.change + 1 }

theorem cell_cellUpd_sub (s : State) {x y : Sub} (h : y ≠ x) (r q : Fin 18) (f : CellRec → CellRec) :
    (s.cellUpd x r f).cell y q = s.cell y q :=
  State.cell_modCell_sub s h r q fun c => { f c with change := c.change + 1 }

theorem probesSettled_completeProbe (s : State) (x : Sub) (r : Fin 18) :
    ProbesSettled x [r] s (s.completeProbe x r none) := by
  unfold State.completeProbe
  split
  · next p pending =>
    refine ⟨⟨_, _, rfl⟩, fun y => ?_, fun y q => ?_⟩
    · by_cases here : y = x
      · subst here
        simp [State.cellUpd, State.modCell, State.modTable, State.raise]
      · simp [State.cellUpd, State.modCell, State.modTable, State.raise, here]
    · by_cases here : y = x
      · subst here
        by_cases same : q = r
        · subst same
          rw [State.cell_cellUpd_same, if_pos ⟨rfl, List.mem_singleton_self q⟩,
            CellRec.settled_of_some pending]
        · rw [if_neg fun both => same (List.mem_singleton.1 both.2)]
          exact cell_cellUpd_other s y same _
      · rw [if_neg fun both => here both.1]
        exact cell_cellUpd_sub s here r q _
  · next quiet =>
    refine ⟨⟨_, _, rfl⟩, fun _ => rfl, fun y q => ?_⟩
    split
    · next both =>
      obtain ⟨rfl, same⟩ := both
      rw [List.mem_singleton.1 same, CellRec.settled_of_none quiet]
    · rfl

theorem ProbesSettled.cons {x : Sub} {r : Fin 18} {l : List (Fin 18)} {s t u : State} (first : ProbesSettled x [r] s t)
    (rest : ProbesSettled x l t u) : ProbesSettled x (r :: l) s u := by
  obtain ⟨v, e, same⟩ := first.frame
  obtain ⟨v', e', same'⟩ := rest.frame
  refine ⟨⟨v', e', by rw [same', same]⟩, fun y => (rest.pointer y).trans (first.pointer y), fun y q => ?_⟩
  rw [rest.cell, first.cell]
  by_cases here : y = x
  · by_cases now : q = r
    · simp [here, now, CellRec.settled_settled]
    · simp [here, now]
  · simp [here]

theorem probesSettled_dropProbes (s : State) (x : Sub) : ProbesSettled x hostRecs s (s.dropProbes x) := by
  unfold State.dropProbes
  generalize hostRecs = l
  induction l generalizing s with
  | nil => exact ⟨⟨_, _, rfl⟩, fun _ => rfl, fun _ _ => by simp⟩
  | cons r l ih => exact (probesSettled_completeProbe s x r).cons (ih _)

theorem mem_hostRecs (r : Fin 18) : r ∈ hostRecs ↔ r.val < 16 := by
  revert r
  decide

/-- What STOP leaves of subscription `x`. -/
structure SubStopped (x : Sub) (s t : State) : Prop where
  outer   : t.outer = s.outer
  txu     : t.txu = s.txu
  rpl     : t.rpl = s.rpl
  pwc     : t.pwc = s.pwc
  calls   : SameCalls s t
  off     : (t.sub x).state = .off ∧ (t.sub x).listenEnd = none
  sub     : ∀ y, y ≠ x → t.sub y = s.sub y
  mbu     : ∀ y, t.mbu.get y = if y = x then MbuX.reset else s.mbu.get y
  pointer : ∀ y, (t.cmu.get y).pointer = (s.cmu.get y).pointer
  cell    : ∀ y r, t.cell y r = if y = x ∧ r.val < 16 then (s.cell y r).settled else s.cell y r

/-- A subscription record turned OFF, made only where it changes a field. -/
theorem subSet_off_frame (s : State) (x : Sub) : ∃ b e,
    (s.subSet x fun r => { r with state := .off, listenEnd := none }) = { s with sbc := b, exm := e } ∧
      (b.get x).part.state = .off ∧ (b.get x).part.listenEnd = none ∧ ∀ y, y ≠ x → (b.get y).part = s.sub y := by
  unfold State.subSet
  split
  · next same =>
    exact ⟨s.sbc, s.exm, rfl, congrArg SubRec.state same.symm, congrArg SubRec.listenEnd same.symm, fun _ _ => rfl⟩
  · have here := State.sub_subUpd_same s x fun r => { r with state := .off, listenEnd := none }
    exact ⟨_, _, rfl, congrArg SubRec.state here, congrArg SubRec.listenEnd here,
      fun y other => State.sub_subUpd_other s other fun r => { r with state := .off, listenEnd := none }⟩

/-- A write beside a subscription's record leaves the records. -/
theorem sub_modSbc_of_part {s : State} {x : Sub} {f : SbcX → SbcX} (keeps : ∀ b, (f b).part = b.part) (y : Sub) :
    (s.modSbc x f).sub y = s.sub y := by
  by_cases here : y = x
  · subst here
    rw [State.sub_modSbc_same, keeps]
    rfl
  · exact State.sub_modSbc_other s here f

theorem subStopped_stopSub (s : State) (x : Sub) : SubStopped x s (s.stopSub x) := by
  have outer : (s.stopSub x).outer = s.outer := by simp [State.stopSub]
  obtain ⟨b, e, turned, off, listens, others⟩ := subSet_off_frame s x
  obtain ⟨⟨v, e', dropped⟩, pointer, cell⟩ := probesSettled_dropProbes { s with sbc := b, exm := e } x
  have kept (y : Sub) := sub_modSbc_of_part (s := State.dropProbes { s with sbc := b, exm := e } x) (x := x)
    (f := fun b => { SbcX.reset with part := b.part, set := b.set }) (fun _ => rfl) y
  unfold State.stopSub at outer ⊢
  dsimp only at outer ⊢
  rw [turned] at outer ⊢
  generalize State.dropProbes { s with sbc := b, exm := e } x = u at *
  subst dropped
  refine ⟨outer, rfl, rfl, rfl, fun _ => ⟨rfl, rfl⟩, ?_, fun y other => (kept y).trans (others y other), fun y => ?_,
    pointer, fun y r => ?_⟩
  · exact ⟨(congrArg SubRec.state (kept x)).trans off, (congrArg SubRec.listenEnd (kept x)).trans listens⟩
  · by_cases here : y = x
    · simp [State.modMbu, State.setDecline, here]
    · simp [State.modMbu, State.setDecline, here, State.modSbc]
  · simp only [← mem_hostRecs]
    exact cell y r

/-! ### The whole stop (R147, R160, R193) -/

/-- The emptied plan list: the blocks stand, and the host is told by the IDLE command alone. -/
theorem stopPlan_kept (s : State) : SameBlocks s s.stopPlan ∧ s.stopPlan.rpl.plan = [] ∧
    ∃ l, s.stopPlan.outer = { s.outer with sent := l } := by
  have plan : ∀ (l : List Occ) (t : State), t.rpl.plan = [] →
      (l.foldl (fun t o => t.deliver o (.aborted false)) t).rpl.plan = [] := fun l t empty =>
    keeps_foldl (P := fun t => t.rpl.plan = []) l (fun o _ t ht => by
      have thinned := thinned_deliver t o (.aborted false)
      rw [ht] at thinned
      exact List.eq_nil_iff_forall_not_mem.2 fun p hp => by simpa using thinned p hp) empty
  have emptied := plan s.rpl.plan (({ s with rpl := { s.rpl with plan := [] } } : State).send .idleAll) rfl
  refine ⟨⟨?_, ?_, fun _ => emptied⟩, emptied, ?_⟩
  · exact keeps_foldl (P := fun t => t.cmu = s.cmu) s.rpl.plan (fun _ _ _ ht => (steady_cmu s.cmu).deliver ht) rfl
  · exact keeps_foldl (P := fun t => t.pwc = s.pwc) s.rpl.plan (fun _ _ _ ht => (steady_pwc s.pwc).deliver ht) rfl
  · exact ⟨_, outer_foldl (fun t o => outer_deliver t o (.aborted false)) s.rpl.plan _⟩

/-- What the blocks are left as before the contexts are freed and the part stops. -/
def State.blocksStopped (s : State) : State :=
  ((((s.dropWithdraws.stopPlan.failQueue .a .stopped).failQueue .b .stopped).stopCalls).stopSub .a).stopSub .b

/-- What the blocks of `u` are stopped as. -/
structure BlocksStopped (u t : State) : Prop where
  host    : ∃ l, t.outer = { u.outer with sent := l }
  plan    : t.rpl.plan = []
  pwc     : t.pwc = u.pwc
  calls   : ∀ k, CallStopped u t k
  slots   : ∀ x i, i ∈ (u.side x).queue → (t.slot i).stoppedAt u.now
  queues  : ∀ x, (t.side x).queue = []
  off     : ∀ x, (t.sub x).state = .off ∧ (t.sub x).listenEnd = none
  mbu     : ∀ x, t.mbu.get x = MbuX.reset
  pointer : ∀ x, (t.cmu.get x).pointer = (u.cmu.get x).pointer
  cell    : ∀ x r, t.cell x r = if r.val < 16 then (u.cell x r).settled else u.cell x r

/-- The queues of both subscriptions failed. -/
theorem failQueues_kept (s : State) :
    (∀ x i, i ∈ (s.side x).queue → (((s.failQueue .a .stopped).failQueue .b .stopped).slot i).stoppedAt s.now) ∧
      ∀ x, (((s.failQueue .a .stopped).failQueue .b .stopped).side x).queue = [] := by
  have now : (s.failQueue .a .stopped).now = s.now := State.now_of_outer (outer_failQueue s .a .stopped)
  refine ⟨fun x i queued => ?_, fun x => ?_⟩
  · rw [← now]
    refine stoppedAt_failQueue .b ?_
    rw [now, queue_failQueue]
    cases x with
    | a => exact .inr (stoppedAt_failQueue .a (.inl queued))
    | b => exact .inl (by simpa using queued)
  · rw [queue_failQueue, queue_failQueue]
    cases x <;> simp

/-- Both subscriptions stopped, over a state whose calls and queues are settled. -/
theorem blocksStopped_of_settled {u c : State} (host : ∃ l, c.outer = { u.outer with sent := l }) (plan : c.rpl.plan = [])
    (blocks : SameBlocks u c) (calls : ∀ k, CallStopped u c k)
    (slots : ∀ x i, i ∈ (u.side x).queue → (c.slot i).stoppedAt u.now) (queues : ∀ x, (c.side x).queue = []) :
    BlocksStopped u ((c.stopSub .a).stopSub .b) := by
  have a := subStopped_stopSub c .a
  generalize c.stopSub .a = d at a ⊢
  have b := subStopped_stopSub d .b
  generalize d.stopSub .b = t at b ⊢
  have txu : t.txu = c.txu := b.txu.trans a.txu
  obtain ⟨l, host⟩ := host
  refine ⟨⟨l, (b.outer.trans a.outer).trans host⟩, ?_, (b.pwc.trans a.pwc).trans blocks.pwc,
    fun k => (calls k).to_same (a.calls.trans b.calls), fun x i queued => ?_, fun x => ?_, fun x => ?_, fun x => ?_,
    fun x => ?_, fun x r => ?_⟩
  · rw [b.rpl, a.rpl, plan]
  · rw [State.slot, txu]
    exact slots x i queued
  · rw [State.side, txu]
    exact queues x
  · cases x with
    | a =>
      rw [b.sub .a (by decide)]
      exact a.off
    | b => exact b.off
  · rw [b.mbu, a.mbu]
    cases x <;> rfl
  · rw [b.pointer, a.pointer, blocks.cmu]
  · have cell : c.cell x r = u.cell x r := by rw [State.cell, blocks.cmu, State.cell]
    rw [b.cell, a.cell, cell]
    cases x <;> simp

theorem blocksStopped_kept (u : State) : BlocksStopped u u.blocksStopped := by
  obtain ⟨v, dropped⟩ := dropWithdraws_frame u
  obtain ⟨blocks, empty, l, host⟩ := stopPlan_kept u.dropWithdraws
  have standing := standing_stopPlan (standing_dropWithdraws u)
  unfold State.blocksStopped
  generalize u.dropWithdraws.stopPlan = p at blocks empty host standing ⊢
  replace host : p.outer = { u.outer with sent := l } := by
    rw [host, dropped]
    rfl
  replace blocks : SameBlocks u p :=
    ⟨by rw [blocks.cmu, dropped], by rw [blocks.pwc, dropped], fun _ => empty⟩
  have now : p.now = u.now := congrArg Outer.localTime host
  obtain ⟨slots, queues⟩ := failQueues_kept p
  obtain ⟨blocksA, callsA⟩ := sameBlocks_failQueue p .a .stopped
  obtain ⟨blocksB, callsB⟩ := sameBlocks_failQueue (p.failQueue .a .stopped) .b .stopped
  have outer : ((p.failQueue .a .stopped).failQueue .b .stopped).outer = p.outer := by simp
  generalize (p.failQueue .a .stopped).failQueue .b .stopped = q at slots queues blocksB callsB outer ⊢
  obtain ⟨blocksC, txu⟩ := sameBlocks_stopCalls q
  have stopped (k : Fin 4) := callStopped_stopCalls q k
  have outerC : q.stopCalls.outer = q.outer :=
    outer_foldl (f := State.stopCall) (fun t k => by unfold State.stopCall; split <;> simp) allCalls q
  generalize q.stopCalls = c at blocksC txu stopped outerC ⊢
  have failed := blocksA.trans blocksB
  refine blocksStopped_of_settled ⟨l, (outerC.trans outer).trans host⟩ (blocksC.plan (failed.plan empty))
    (blocks.trans (failed.trans blocksC)) (fun k => (stopped k).of_same (standing.calls.trans (callsA.trans callsB)))
    (fun x i queued => ?_) fun x => ?_
  · rw [State.slot, txu, ← now]
    exact slots x i (by rwa [standing.queue x])
  · rw [State.side, txu]
    exact queues x

/-- The contexts freed, with what the timing unit and the text unit still held. -/
def State.listsCleared (s : State) : State :=
  { s with
    tmu := { s.tmu with ctx := allCtx.foldl (fun v (c : Fin 3) => v.set c (v[c]).freed) s.tmu.ctx, deferred := [] }
    txu := { s.txu with reasm := Vector.replicate 4 Reasm.idle, receipts := [] } }

theorem ctx_listsCleared (s : State) (c : Fin 3) : s.listsCleared.ctx c = (s.ctx c).freed :=
  ctx_modCtx_all s Ctx.freed c

/-- The part stopped, in RUN. -/
def State.partStopped (s : State) : State :=
  let s := s.setPower .run
  let s := { s with pwc := { s.pwc with timer := 0, target := 0, accum := 0 } }
  ({ s with exm := { s.exm with run := .stopped, heldStop := false } } : State).clearMarks

theorem stopPart_eq (s : State) : s.stopPart = s.blocksStopped.listsCleared.partStopped := by
  unfold State.stopPart State.blocksStopped
  dsimp only
  generalize State.stopSub _ .b = t
  unfold State.partStopped State.listsCleared
  dsimp only

theorem power_setPower (s : State) (p : Power) : (s.setPower p).pwc.state = p := by
  unfold State.setPower
  split
  · assumption
  · rfl

theorem partStopped_frame (s : State) : ∃ q : Pwc, q.state = .run ∧ q.drift = s.pwc.drift ∧
    s.partStopped = { s with
      tmu := { s.tmu with freed := false }
      rpl := { s.rpl with left := false }
      pwc := q
      exm := { s.exm with run := .stopped, heldStop := false } } := by
  obtain ⟨q, frame, drift⟩ := setPower_frame s .run
  have power := power_setPower s .run
  unfold State.partStopped
  rw [frame] at power ⊢
  exact ⟨{ q with timer := 0, target := 0, accum := 0 }, power, drift, rfl⟩

theorem drift_advance (dt : Nat) (s : State) : (s.advance dt).pwc.drift = s.pwc.drift := by
  unfold State.advance
  split
  · rfl
  · split <;> rfl

theorem writeStop_of_stopped {s : State} (stopped : s.exm.run = .stopped) : s.writeStop = s := if_pos stopped

theorem writeStop_of_awake {s : State} (runs : s.exm.run ≠ .stopped) (awake : s.pwc.state = .run ∨ s.pwc.state = .nap) :
    s.writeStop = s.stopPart := by
  unfold State.writeStop
  rw [if_neg runs]
  rcases awake with power | power
  · rw [power]
  · rw [power]

theorem writeStop_of_waking {s : State} (runs : s.exm.run ≠ .stopped) (waking : s.pwc.state = .waking) :
    s.writeStop = { s with exm := { s.exm with heldStop := true } } := by
  unfold State.writeStop
  rw [if_neg runs, waking]

theorem writeStop_of_asleep {s : State} (runs : s.exm.run ≠ .stopped) (asleep : s.pwc.state = .sleep) :
    s.writeStop = ({ s with exm := { s.exm with heldStop := true } } : State).enterWaking s.pwc.timer := by
  unfold State.writeStop
  rw [if_neg runs, asleep]

theorem exec_stop {s : State} (dt : Nat) (alive : s.pins.resetHeld = false) :
    exec (.stop dt) s = .next (s.advance dt).writeStop :=
  direct_of_due (alive_advance dt alive)

/-- What the host sees of the part stands but for the radio's command. -/
theorem host_of_outer {u t : State} {l : List RadioCommand} (host : t.outer = { u.outer with sent := l }) :
    t.exm.mem = u.exm.mem ∧ t.exm.enable = u.exm.enable ∧ t.exm.scan = u.exm.scan ∧ t.exm.fault = u.exm.fault ∧
      t.exm.badSetup = u.exm.badSetup ∧ t.exm.latch = u.exm.latch ∧ t.rpl.totalSilent = u.rpl.totalSilent ∧
      t.rpl.runSilent = u.rpl.runSilent :=
  ⟨congrArg Outer.mem host, congrArg Outer.enable host, congrArg Outer.scan host, congrArg Outer.fault host,
    congrArg Outer.badSetup host, congrArg Outer.latch host, congrArg Outer.total host, congrArg Outer.silent host⟩

theorem call_advance (dt : Nat) (s : State) (k : Fin 4) : (s.advance dt).call k = s.call k := by
  rw [State.call, clu_advance, State.call]
theorem side_advance (dt : Nat) (s : State) (x : Sub) : (s.advance dt).side x = s.side x := by
  rw [State.side, txu_advance, State.side]
theorem cell_advance (dt : Nat) (s : State) (x : Sub) (r : Fin 18) : (s.advance dt).cell x r = s.cell x r := by
  rw [State.cell, cmu_advance, State.cell]

end Sys2Proof.Machine

open Sys2Proof Sys2Proof.Machine

/-- Settles O16: a stopped part ignores STOP; in RUN and NAP the blocks are stopped one after another; in WAKING and SLEEP the STOP
is held. -/
theorem stopSettlesTheBlocks : Obligations.StopSettlesTheBlocks := by
  intro s dt alive
  rw [exec_stop dt alive]
  refine ⟨fun stopped => ?_, fun runs awake => ?_, fun runs waking => ?_, fun runs asleep => ?_⟩
  · rw [writeStop_of_stopped (by simpa using stopped)]
  · refine ⟨_, rfl, ?_⟩
    rw [writeStop_of_awake (by simpa using runs) (by simpa using awake), stopPart_eq]
    obtain ⟨⟨l, host⟩, plan, pwc, calls, slots, queues, off, mbu, pointer, cell⟩ := blocksStopped_kept (s.advance dt)
    generalize (s.advance dt).blocksStopped = t at *
    obtain ⟨q, power, drift, frame⟩ := partStopped_frame t.listsCleared
    rw [frame]
    obtain ⟨mem, enable, scan, fault, badSetup, latch, total, silent⟩ := host_of_outer host
    rw [exm_advance] at mem enable scan fault badSetup latch
    rw [rpl_advance] at total silent
    refine ⟨rfl, power, plan, rfl, fun c => ?_, fun x => ?_, fun k => live_eq_false_iff.1 (calls k).not_live, fun k => ?_,
      fun x i queued => slots x i (by rwa [side_advance]), fun x r => ?_, fun x => ?_, fun r => ?_,
      mem, enable, scan, fault, badSetup, latch, total, silent, ?_⟩
    · have freed := ctx_listsCleared t c
      exact ⟨congrArg Ctx.state freed, congrArg Ctx.hold freed⟩
    · exact ⟨(off x).1, (off x).2, queues x, congrArg (fun m => m.machine.state) (mbu x), congrArg MbuX.inHand (mbu x)⟩
    · have stopped := calls k
      simp only [CallStopped, live_iff, call_advance] at stopped
      exact stopped
    · refine (cell x r).trans ?_
      rw [cell_advance]
      by_cases hosts : r.val < 16
      · rw [if_pos hosts, if_pos hosts]
        rfl
      · rw [if_neg hosts, if_neg hosts]
    · exact (pointer x).trans (by rw [cmu_advance])
    · exact Vector.getElem_replicate _
    · exact drift.trans ((congrArg Pwc.drift pwc).trans (drift_advance dt s))
  · rw [writeStop_of_waking (by simpa using runs) (by simpa using waking)]
  · refine ⟨_, rfl, ?_⟩
    rw [writeStop_of_asleep (by simpa using runs) (by simpa using asleep)]
    have run : (s.advance dt).exm.run = s.exm.run := congrArg Exm.run (exm_advance dt s)
    have mem : (s.advance dt).exm.mem = s.exm.mem := congrArg Exm.mem (exm_advance dt s)
    exact ⟨rfl, rfl, run, mem⟩
end

section
/-! SUPPORT. The end of a listen period (R72). -/

namespace Sys2Proof.Machine

/-- A bit raised is found set. -/
theorem raised_bit (attn : BitVec 9) (a : Area) : (attn ||| areaMask a) &&& areaMask a ≠ 0 := by
  cases a <;> revert attn <;> decide

theorem execListenPeriodEnd_of_reached {s u : State} {dt : Nat} {x : Sub} {e : Frame} (time : u = s.advance dt)
    (working : u.working = true) (listens : (u.sub x).listenEnd = some e) (reached : u.servingReached x (e + 1) = true) :
    execListenPeriodEnd dt x s = .next (u.finish (u.endListen x)) :=
  block_of_passed (g := fun s => match (s.sub x).listenEnd with
    | some e => s.servingReached x (plusFrames e 1)
    | none => false) time working (by rw [listens]; exact reached)

theorem endListen_of_some {s : State} {x : Sub} {e : Frame} (listens : (s.sub x).listenEnd = some e) :
    s.endListen x = (s.subUpd x fun r => { r with listenEnd := none }).withdraw x fun o => o.asksFor x .listen && !o.started := by
  unfold State.endListen
  rw [listens]

end Sys2Proof.Machine

open Sys2Proof Sys2Proof.Machine

/-- Settles O45: the end of the period is one update of the subscription record and a withdrawal, and no context goes FREE. -/
theorem listenPeriodEnds : Obligations.ListenPeriodEnds := by
  intro s u dt x e time working marks listens reached
  refine ⟨_, execListenPeriodEnd_of_reached time working listens reached, ?_⟩
  rw [endListen_of_some listens]
  let t := u.subUpd x fun r => { r with listenEnd := none }
  have here : t.sub x = { u.sub x with listenEnd := none, change := (u.sub x).change + 1 } :=
    State.sub_subUpd_same u x _
  have state : (t.sub x).state = (u.sub x).state := by rw [here]
  obtain ⟨v, q, fin, -⟩ := finish_frame u (t.withdraw x fun o => o.asksFor x .listen && !o.started) (unfreed_of_marksOk marks).1
  rw [fin]
  exact ⟨congrArg SubRec.listenEnd here, state, raised_bit u.exm.attn .subs, rfl, rfl⟩
end

section
/-! SUPPORT. How a search pass begins (R64, R65, R67): the records on its list, the attempt on the first that may be tried, and
the end in LOST where there is none. -/

namespace Sys2Proof.Machine

/-! ### The list of a pass (R64) -/

theorem mem_byLevel (s : State) (x : Sub) (q r : Fin 18) (l : List (Fin 18)) :
    r ∈ s.byLevel x q l ↔ r = q ∨ r ∈ l := by
  induction l with
  | nil => simp [State.byLevel]
  | cons p l ih =>
    rw [State.byLevel]
    split
    · exact List.mem_cons
    · rw [List.mem_cons, ih, List.mem_cons]
      tauto

theorem mem_foldl_byLevel (s : State) (x : Sub) (r : Fin 18) (l m : List (Fin 18)) :
    r ∈ l.foldl (fun a q => s.byLevel x q a) m ↔ r ∈ l ∨ r ∈ m := by
  induction l generalizing m with
  | nil => simp
  | cons q l ih =>
    rw [List.foldl_cons, ih, mem_byLevel, List.mem_cons]
    tauto

/-- The list of a pass holds the host records that may be tried, each of them and no other. -/
theorem mem_passList (s : State) (x : Sub) (r : Fin 18) : r ∈ s.passList x ↔ r ∈ hostRecs ∧ s.tryable x r = true := by
  simp only [State.passList, List.mem_append, mem_foldl_byLevel, List.mem_filter, List.not_mem_nil, or_false,
    decide_eq_true_eq, beq_iff_eq]
  have sampled := Nat.eq_zero_or_pos (s.cell x r).count
  tauto

/-! ### Attempts (R20, R65) -/

/-- A request that is served writes the timing contexts alone. -/
theorem tryJoin_frame {s t : State} {r : Role} {x : Sub} {k : Key} (joined : s.tryJoin r x k = some t) :
    ∃ v, t = { s with tmu := { s.tmu with ctx := v } } := by
  unfold State.tryJoin at joined
  split at joined
  · split at joined
    · cases joined; exact ⟨s.tmu.ctx, rfl⟩
    · split at joined
      · cases joined; exact ⟨_, rfl⟩
      · contradiction
  · split at joined
    · cases joined; exact ⟨_, rfl⟩
    · contradiction

/-- Every request that waits is one that waited before, or a SEARCH request. -/
def SearchesJoin (l m : List Deferred) : Prop := ∀ d ∈ m, d ∈ l ∨ d.role = .search

/-- The pass with an attempt on record `r` under way and the records `rest` to come. -/
def Search.on (p : Search) (s : State) (x : Sub) (r : Fin 18) (rest : List (Fin 18)) : Search :=
  { p with rest := rest, current := some (r, (s.cell x r).key) }

/-- The subscription's side with the attempt written to its pass. -/
def SbcX.attempting (b : SbcX) (s : State) (x : Sub) (r : Fin 18) (rest : List (Fin 18)) : SbcX :=
  { b with search := b.search.map fun p => p.on s x r rest }

/-- An attempt writes the pass, the contexts and the requests that wait. -/
theorem attempt_frame (s : State) (x : Sub) (r : Fin 18) (rest : List (Fin 18)) :
    ∃ v l, s.attempt x r rest = { s with
        sbc := s.sbc.set x ((s.sbc.get x).attempting s x r rest), tmu := { s.tmu with ctx := v, deferred := l } } ∧
      SearchesJoin s.tmu.deferred l := by
  unfold State.attempt
  dsimp only
  split
  · next joined =>
    obtain ⟨v, same⟩ := tryJoin_frame joined
    exact ⟨v, s.tmu.deferred, same, fun _ hd => .inl hd⟩
  · refine ⟨s.tmu.ctx, _, rfl, fun d hd => ?_⟩
    rcases List.mem_append.1 hd with old | new
    · exact .inl (List.mem_filter.1 old).1
    · exact .inr (by rw [List.mem_singleton.1 new])

theorem tryRecords_of_tryable {s : State} {x : Sub} {l : List (Fin 18)} (any : ∃ r ∈ l, s.tryable x r = true) :
    ∃ r rest, s.tryable x r = true ∧ s.tryRecords x l = some (s.attempt x r rest) := by
  induction l with
  | nil => simp at any
  | cons q l ih =>
    rw [State.tryRecords]
    by_cases first : s.tryable x q = true
    · exact ⟨q, l, first, if_pos first⟩
    · rw [if_neg first]
      refine ih ?_
      obtain ⟨r, mem, tryable⟩ := any
      rcases List.mem_cons.1 mem with rfl | later
      · contradiction
      · exact ⟨r, later, tryable⟩

theorem tryRecords_of_none {s : State} {x : Sub} {l : List (Fin 18)} (untryable : ∀ r ∈ l, s.tryable x r = false) :
    s.tryRecords x l = none := by
  induction l with
  | nil => rfl
  | cons q l ih =>
    rw [State.tryRecords, if_neg (by simp [untryable q])]
    exact ih fun r hr => untryable r (List.mem_cons_of_mem q hr)

/-- Where a record is tried, the attempt on it is what is done. -/
theorem tryRecords_attempts {s t : State} {x : Sub} {l : List (Fin 18)} (tried : s.tryRecords x l = some t) :
    ∃ r rest, t = s.attempt x r rest := by
  by_cases any : ∃ r ∈ l, s.tryable x r = true
  · obtain ⟨r, rest, -, attempts⟩ := tryRecords_of_tryable any
    exact ⟨r, rest, Option.some.inj (tried.symm.trans attempts)⟩
  · rw [tryRecords_of_none (by simpa using any)] at tried
    contradiction

/-! ### The pass (R64, R67) -/

/-- The subscription's side as a pass begins, no record tried yet. -/
def State.passOpened (s : State) (x : Sub) : State :=
  s.modSbc x fun b =>
    { b with search := some { rest := s.passList x, current := none, again := [], changed := false }, lostRetry := none }

/-- A pass just begun: an attempt on record `r` is under way, no record has been pre-empted and the table has not changed. -/
def Search.started (s : State) (x : Sub) (r : Fin 18) (rest : List (Fin 18)) : Search :=
  { rest := rest, current := some (r, (s.cell x r).key), again := [], changed := false }

/-- With a record to try, the pass begins with an attempt on one; no context goes FREE. -/
theorem beginPass_of_tryable {s : State} {x : Sub} (any : ∃ r ∈ hostRecs, s.tryable x r = true) :
    ∃ r rest v l, s.tryable x r = true ∧ SearchesJoin s.tmu.deferred l ∧
      s.beginPass x = { s with
        sbc := s.sbc.set x { s.sbc.get x with search := some (Search.started s x r rest), lostRetry := none }
        tmu := { s.tmu with ctx := v, deferred := l } } := by
  obtain ⟨q, host, tryable⟩ := any
  obtain ⟨r, rest, may, tried⟩ := tryRecords_of_tryable (s := s.passOpened x) (l := s.passList x)
    ⟨q, (mem_passList s x q).2 ⟨host, tryable⟩, tryable⟩
  obtain ⟨v, l, attempts, joins⟩ := attempt_frame (s.passOpened x) x r rest
  refine ⟨r, rest, v, l, may, joins, ?_⟩
  unfold State.beginPass
  dsimp only
  rw [← State.passOpened, tried]
  dsimp only
  rw [attempts]
  cases x <;> rfl

/-- With no record to try, the pass ends at once. -/
theorem beginPass_of_none {s : State} {x : Sub} (untryable : ∀ r ∈ hostRecs, s.tryable x r = false) :
    s.beginPass x = (s.passOpened x).enterLost x .noCells := by
  have untried : (s.passOpened x).tryRecords x (s.passList x) = none :=
    tryRecords_of_none fun r hr => untryable r ((mem_passList s x r).1 hr).1
  unfold State.beginPass
  dsimp only
  rw [← State.passOpened, untried]

/-- LOST since the present for want of cells, until a retry after 30 s (R64, R67). -/
def SbcX.lostAt (now : Nat) (b : SbcX) : Prop :=
  b.part.state = .lost ∧ b.part.cause = .noCells ∧ b.lostRetry = some (now + lostWait) ∧ b.search = none

theorem search_enterLost (s : State) (x : Sub) (c : ServiceCause) : ((s.enterLost x c).sbc.get x).search = none := by
  unfold State.enterLost
  dsimp only
  rw [(dropProbes_frame _ x).1, search_subUpd]
  simp [State.modSbc]

theorem lostAt_beginPass {s : State} {x : Sub} (untryable : ∀ r ∈ hostRecs, s.tryable x r = false) :
    ((s.beginPass x).sbc.get x).lostAt s.now ∧ (s.beginPass x).tmu = s.tmu := by
  rw [beginPass_of_none untryable]
  obtain ⟨tmu, state, cause, retry⟩ := enterLost_state (s.passOpened x) x .noCells
  exact ⟨⟨state, cause, retry, search_enterLost _ _ _⟩, tmu⟩

/-! ### The retry of a LOST subscription (R67) -/

theorem execLostRetry_of_due {s u : State} {dt : Nat} {x : Sub} {d : Nat} (time : u = s.advance dt)
    (working : u.working = true) (lost : (u.sub x).state = .lost) (retry : (u.sbc.get x).lostRetry = some d)
    (come : d ≤ u.now) : execLostRetry dt x s = .next (u.finish (u.retryLost x)) :=
  block_of_passed (g := fun s => s.lostDue x) time working (by simp [State.lostDue, State.dueAt, lost, retry, come])

end Sys2Proof.Machine

open Sys2Proof Sys2Proof.Machine

/-- Settles O44: the retry begins a pass, which frees no context, so that no request is retried after it. -/
theorem lostRetrySearches : Obligations.LostRetrySearches := by
  intro s u dt x d time working marks lost retry come
  refine ⟨_, execLostRetry_of_due time working lost retry come, fun any => ?_, fun untryable => ?_⟩
  · let t := u.subUpd x fun r => { r with state := .searching }
    have here : t.sub x = { u.sub x with state := .searching, change := (u.sub x).change + 1 } :=
      State.sub_subUpd_same u x _
    obtain ⟨r, rest, v, l, -, -, begins⟩ := beginPass_of_tryable (s := t) any
    have stays : (t.beginPass x).retried = t.beginPass x :=
      retried_of_unfreed (by rw [begins]; exact (unfreed_of_marksOk marks).1)
    rw [State.sub, sbc_finish, State.retryLost, stays, begins]
    rw [Pair.get_set_same, ← State.sub, here]
    exact ⟨rfl, rfl, rfl⟩
  · obtain ⟨⟨state, cause, again, -⟩, tmu⟩ :=
      lostAt_beginPass (s := u.subUpd x fun r => { r with state := .searching }) untryable
    have stays := retried_of_unfreed ((congrArg Tmu.freed tmu).trans (unfreed_of_marksOk marks).1)
    rw [State.sub, sbc_finish, State.retryLost, stays]
    exact ⟨state, cause, again⟩
end

section
/-! SUPPORT. What the blocks hold of the host's halves as they were last taken, with each cell record's barred mark: the settings,
the records in use, the stamps and the notify flags (R57, R76, R95, R131, R151, R168). But for a scan's take itself, no operation
that a take or a retry is made of changes any of it. -/

namespace Sys2Proof.Machine

/-- What a cell record holds of its host half, and its barred mark. -/
structure CellHeld where
  used   : Bool
  key    : Key
  offset : Int
  barred : Nat

def CellRec.held (c : CellRec) : CellHeld :=
  { used := c.used, key := c.key, offset := c.offset, barred := c.barredUntil }

/-- What the blocks hold of the host's halves: of a call context and an outbox slot the taken stamp and the notify flag, of an
inbox slot the release stamp. -/
structure Taken where
  settings : Sub → SubSettings
  cells    : Sub → Fin 18 → CellHeld
  calls    : Fin 4 → Stamp × Bool
  outbox   : Fin 8 → Stamp × Bool
  inbox    : Fin 8 → Stamp

def State.taken (s : State) : Taken :=
  { settings := s.set
    cells := fun x r => (s.cell x r).held
    calls := fun k => ((s.call k).part.taken, (s.call k).notify)
    outbox := fun i => ((s.slot i).taken, (s.slot i).notify)
    inbox := fun i => (s.txu.inbox[i]).release }

theorem taken_foldl {α : Type} {f : State → α → State} (turn : ∀ s a, (f s a).taken = s.taken) (l : List α) (s : State) :
    (l.foldl f s).taken = s.taken :=
  keeps_foldl (P := fun t => t.taken = s.taken) l (fun a _ t ht => (turn t a).trans ht) rfl

theorem taken_ite {c : Prop} [Decidable c] {s t u : State} (hs : s.taken = u.taken) (ht : t.taken = u.taken) :
    (if c then s else t).taken = u.taken := keeps_ite (P := fun t => t.taken = u.taken) hs ht

/-! ### Updates -/

@[simp] theorem taken_modCtx (s : State) (c : Fin 3) (f : Ctx → Ctx) : (s.modCtx c f).taken = s.taken := (rfl)
@[simp] theorem taken_modMbu (s : State) (x : Sub) (f : MbuX → MbuX) : (s.modMbu x f).taken = s.taken := (rfl)
@[simp] theorem taken_modMachine (s : State) (x : Sub) (f : HoMachine → HoMachine) :
    (s.modMachine x f).taken = s.taken := (rfl)
@[simp] theorem taken_resetMachine (s : State) (x : Sub) (m : MachineState) : (s.resetMachine x m).taken = s.taken := (rfl)
@[simp] theorem taken_modSide (s : State) (x : Sub) (f : SendSide → SendSide) : (s.modSide x f).taken = s.taken := (rfl)
@[simp] theorem taken_modReasm (s : State) (r : Fin 4) (f : Reasm → Reasm) : (s.modReasm r f).taken = s.taken := (rfl)
@[simp] theorem taken_raise (s : State) (a : Area) : (s.raise a).taken = s.taken := (rfl)
@[simp] theorem taken_scanClear (s : State) (a : Area) : (s.scanClear a).taken = s.taken := (rfl)
@[simp] theorem taken_faultUpd (s : State) (f : FaultRecord → FaultRecord) : (s.faultUpd f).taken = s.taken := (rfl)
@[simp] theorem taken_raiseIf (s : State) (b : Bool) (a : Area) : (s.raiseIf b a).taken = s.taken := by cases b <;> rfl
@[simp] theorem taken_withdraw (s : State) (x : Sub) (p : Occ → Bool) : (s.withdraw x p).taken = s.taken := (rfl)
@[simp] theorem taken_withdrawAll (s : State) (x : Sub) : (s.withdrawAll x).taken = s.taken := (rfl)
@[simp] theorem taken_withdrawSeek (s : State) (x : Sub) (c : Fin 3) : (s.withdrawSeek x c).taken = s.taken := (rfl)
@[simp] theorem taken_dropOccs (s : State) (p : Occ → Bool) : (s.dropOccs p).taken = s.taken := (rfl)
@[simp] theorem taken_takeRef (s : State) (x : Sub) : (s.takeRef x).taken = s.taken := (rfl)
@[simp] theorem taken_setDecline (s : State) (x : Sub) (r : Option Ref) : (s.setDecline x r).taken = s.taken := (rfl)
@[simp] theorem taken_dropReceipts (s : State) (x : Sub) : (s.dropReceipts x).taken = s.taken := (rfl)
@[simp] theorem taken_cancelDeferred (s : State) (r : Role) (x : Sub) : (s.cancelDeferred r x).taken = s.taken := (rfl)
@[simp] theorem taken_defer (s : State) (r : Role) (x : Sub) (k : Key) : (s.defer r x k).taken = s.taken := (rfl)

/-- A write of a subscription's side changes the settings alone. -/
theorem taken_modSbc_eq (s : State) (x : Sub) (f : SbcX → SbcX) :
    (s.modSbc x f).taken = { s.taken with settings := fun y => if y = x then (f (s.sbc.get x)).set else s.set y } := by
  have set : (s.modSbc x f).set = fun y => if y = x then (f (s.sbc.get x)).set else s.set y := by
    funext y
    by_cases here : y = x
    · subst here; simp [State.set, State.modSbc]
    · simp [State.set, State.modSbc, here]
  exact congrArg (fun v => { s.taken with settings := v }) set

@[simp] theorem taken_modSbc (s : State) (x : Sub) {f : SbcX → SbcX} (keeps : ∀ b, (f b).set = b.set) :
    (s.modSbc x f).taken = s.taken := by
  rw [taken_modSbc_eq, keeps]
  refine congrArg (fun v => { s.taken with settings := v }) (funext fun y => ?_)
  split
  · next here => rw [here]; rfl
  · rfl

@[simp] theorem taken_subUpd (s : State) (x : Sub) (f : SubRec → SubRec) : (s.subUpd x f).taken = s.taken := by
  simp [State.subUpd]
@[simp] theorem taken_subSet (s : State) (x : Sub) (f : SubRec → SubRec) : (s.subSet x f).taken = s.taken :=
  taken_ite rfl (taken_subUpd s x f)

theorem taken_modCell (s : State) (x : Sub) (r : Fin 18) {f : CellRec → CellRec}
    (keeps : (f (s.cell x r)).held = (s.cell x r).held) : (s.modCell x r f).taken = s.taken := by
  refine congrArg (fun v => { s.taken with cells := v }) (funext fun y => funext fun q => ?_)
  by_cases here : y = x
  · subst here
    by_cases same : q = r
    · subst same; rw [State.cell_modCell_same, keeps]
    · rw [State.cell_modCell_other s y same]
  · rw [State.cell_modCell_sub s here]

theorem taken_cellUpd (s : State) (x : Sub) (r : Fin 18) {f : CellRec → CellRec}
    (keeps : (f (s.cell x r)).held = (s.cell x r).held) : (s.cellUpd x r f).taken = s.taken :=
  (taken_raise _ _).trans (taken_modCell s x r keeps)

theorem taken_cellSet (s : State) (x : Sub) (r : Fin 18) {f : CellRec → CellRec}
    (keeps : (f (s.cell x r)).held = (s.cell x r).held) : (s.cellSet x r f).taken = s.taken :=
  taken_ite rfl (taken_cellUpd s x r keeps)

theorem taken_modCall_eq (s : State) (k : Fin 4) (f : Call → Call) :
    (s.modCall k f).taken = { s.taken with calls := fun j =>
      if j = k then ((f (s.call k)).part.taken, (f (s.call k)).notify) else s.taken.calls j } := by
  refine congrArg (fun v => { s.taken with calls := v }) (funext fun j => ?_)
  by_cases here : j = k
  · subst here; rw [State.call_modCall_same, if_pos rfl]
  · rw [State.call_modCall_other s here, if_neg here]; rfl

@[simp] theorem taken_modCall (s : State) (k : Fin 4) {f : Call → Call}
    (keeps : ∀ c, (f c).part.taken = c.part.taken ∧ (f c).notify = c.notify) : (s.modCall k f).taken = s.taken := by
  rw [taken_modCall_eq, (keeps _).1, (keeps _).2]
  refine congrArg (fun v => { s.taken with calls := v }) (funext fun j => ?_)
  split
  · next here => rw [here]
  · rfl

@[simp] theorem taken_callUpd (s : State) (k : Fin 4) {f : CallRec → CallRec} (keeps : ∀ r, (f r).taken = r.taken) :
    (s.callUpd k f).taken = s.taken := by simp [State.callUpd, keeps]
@[simp] theorem taken_callStatusUpd (s : State) (k : Fin 4) {f : CallRec → CallRec} (keeps : ∀ r, (f r).taken = r.taken) :
    (s.callStatusUpd k f).taken = s.taken := by simp [State.callStatusUpd, keeps]

theorem taken_modSlot_eq (s : State) (i : Fin 8) (f : OutSlot → OutSlot) :
    (s.modSlot i f).taken = { s.taken with outbox := fun j =>
      if j = i then ((f (s.slot i)).taken, (f (s.slot i)).notify) else s.taken.outbox j } := by
  refine congrArg (fun v => { s.taken with outbox := v }) (funext fun j => ?_)
  by_cases here : j = i
  · subst here; rw [State.slot_modSlot_same, if_pos rfl]
  · rw [State.slot_modSlot_other s here, if_neg here]; rfl

/-- A change of an outbox slot that keeps what it holds of the host's half. -/
def KeepsPost (f : OutSlot → OutSlot) : Prop := ∀ o, (f o).taken = o.taken ∧ (f o).notify = o.notify

theorem taken_modSlot (s : State) (i : Fin 8) {f : OutSlot → OutSlot} (keeps : KeepsPost f) :
    (s.modSlot i f).taken = s.taken := by
  rw [taken_modSlot_eq, (keeps _).1, (keeps _).2]
  refine congrArg (fun v => { s.taken with outbox := v }) (funext fun j => ?_)
  split
  · next here => rw [here]
  · rfl

theorem taken_slotUpd (s : State) (i : Fin 8) (b : Bool) {f : OutSlot → OutSlot}
    (keeps : KeepsPost f := by exact fun _ => ⟨rfl, rfl⟩) :
    (s.slotUpd i b f).taken = s.taken :=
  (taken_raiseIf _ _ _).trans (taken_modSlot s i fun o => keeps o)

theorem taken_modInbox (s : State) (i : Fin 8) {f : InSlot → InSlot} (keeps : ∀ b, (f b).release = b.release) :
    (s.modInbox i f).taken = s.taken := by
  refine congrArg (fun v => { s.taken with inbox := v }) (funext fun j => ?_)
  by_cases here : j = i
  · subst here; simp [State.modInbox, keeps]
  · have other : i.val ≠ j.val := fun e => here (Fin.ext e.symm)
    simp [State.modInbox, Vector.getElem_set_ne _ _ other]

/-! ### Texts (chapter 9) -/

@[simp] theorem taken_promote (s : State) (x : Sub) : (s.promote x).taken = s.taken := by
  unfold State.promote
  split
  · rfl
  · exact taken_ite ((taken_modSide _ _ _).trans (taken_slotUpd s _ false)) rfl

@[simp] theorem taken_leaveQueue (s : State) (x : Sub) (i : Fin 8) : (s.leaveQueue x i).taken = s.taken :=
  taken_ite (taken_promote _ x) rfl

theorem taken_finishHead (s : State) (x : Sub) (st : OutState) {f : OutSlot → OutSlot}
    (keeps : KeepsPost f := by exact fun _ => ⟨rfl, rfl⟩) :
    (s.finishHead x st f).taken = s.taken := by
  unfold State.finishHead
  split
  · rfl
  · exact (taken_leaveQueue _ _ _).trans (taken_slotUpd s _ true keeps)

@[simp] theorem taken_abandon (s : State) (x : Sub) : (s.abandon x).taken = s.taken := by
  unfold State.abandon
  split
  · exact taken_ite (taken_finishHead _ _ _) (taken_slotUpd _ _ _)
  · rfl

@[simp] theorem taken_attemptFailed (s : State) (x : Sub) (e : Frame) : (s.attemptFailed x e).taken = s.taken := by
  unfold State.attemptFailed
  split
  · rfl
  · exact taken_ite (taken_finishHead _ _ _) (taken_slotUpd _ _ _)

@[simp] theorem taken_segmentOutcome (s : State) (x : Sub) (h : Handle) (ref : Ref) (e : Ending) :
    (s.segmentOutcome x h ref e).taken = s.taken := by
  unfold State.segmentOutcome
  dsimp only
  split
  · rfl
  · refine taken_ite ?_ rfl
    split
    · exact taken_ite (taken_abandon s x) (taken_abandon s x)
    · exact taken_abandon s x
  · refine taken_ite ?_ rfl
    split
    · exact taken_attemptFailed s x _
    · rfl

@[simp] theorem taken_receiptOutcome (s : State) (x : Sub) (ref : Ref) (w : Option (Fin 4)) (e : Ending) :
    (s.receiptOutcome x ref w e).taken = s.taken := by
  unfold State.receiptOutcome
  split
  · exact taken_ite rfl rfl
  · rfl

@[simp] theorem taken_pauseHead (s : State) (x : Sub) : (s.pauseHead x).taken = s.taken := by
  unfold State.pauseHead
  split
  · rfl
  · exact taken_ite ((taken_modSide _ _ _).trans (taken_slotUpd s _ false)) rfl

@[simp] theorem taken_textsLost (s : State) (x : Sub) : (s.textsLost x).taken = s.taken :=
  (taken_abandon _ x).trans (taken_pauseHead s x)

@[simp] theorem taken_failQueue (s : State) (x : Sub) (c : FailCause) : (s.failQueue x c).taken = s.taken := by
  unfold State.failQueue
  exact (taken_modSide _ _ _).trans (taken_foldl (fun t i => taken_slotUpd t i true) _ _)

@[simp] theorem taken_dropReasm (s : State) (p : Reasm → Bool) : (s.dropReasm p).taken = s.taken :=
  taken_foldl (fun _ _ => taken_ite (taken_modReasm _ _ _) rfl) allReasm s
@[simp] theorem taken_dropCollecting (s : State) (x : Sub) : (s.dropCollecting x).taken = s.taken := taken_dropReasm s _

@[simp] theorem taken_deliverOne (s : State) : s.deliverOne.taken = s.taken := by
  unfold State.deliverOne
  split
  · exact (taken_raise _ _).trans ((taken_modReasm _ _ _).trans (taken_modInbox s _ (by exact fun _ => rfl)))
  · rfl

@[simp] theorem taken_deliverWaiting (s : State) : s.deliverWaiting.taken = s.taken := by simp [State.deliverWaiting]

/-! ### Voice (chapter 8) -/

@[simp] theorem taken_upFinal (s : State) (k : Fin 4) (f : Frame) (o : UpOutcome) : (s.upFinal k f o).taken = s.taken :=
  taken_ite (taken_callStatusUpd s k fun _ => rfl) rfl

@[simp] theorem taken_downOutcome (s : State) (k : Fin 4) (f : Frame) (o : DownOutcome) (b : List Byte) :
    (s.downOutcome k f o b).taken = s.taken := taken_modCall s k fun _ => ⟨rfl, rfl⟩

@[simp] theorem taken_downWrite (s : State) (k : Fin 4) (p : DownPending) : (s.downWrite k p).taken = s.taken := by
  unfold State.downWrite
  split
  · rfl
  · simp

@[simp] theorem taken_flush (s : State) (k : Fin 4) (p : DownPending → Bool) : (s.flush k p).taken = s.taken :=
  taken_foldl (fun t q => taken_downWrite t k q) _ s

@[simp] theorem taken_dropUplinks (s : State) (k : Fin 4) : (s.dropUplinks k).taken = s.taken := by
  unfold State.dropUplinks
  exact taken_foldl (fun t o => taken_upFinal t k _ _) _ s

/-! ### Cells (chapter 5) -/

/-- A role other than NONE, given to a record in use, keeps it in use. -/
theorem held_withRole {c : CellRec} {role : CellRole} (used : c.used = true) (given : role ≠ .none) :
    (c.withRole role).held = c.held := by
  have still : (role != .none) = c.used := by rw [used]; simpa using given
  unfold CellRec.withRole
  split
  · rfl
  · split <;> exact congrArg (fun b => { c.held with used := b }) still

theorem taken_moveRole (s : State) (x : Sub) {old new : CellRole} (ho : old ≠ .none) (hn : new ≠ .none) :
    (s.moveRole x old new).taken = s.taken := by
  refine taken_foldl (fun t r => ?_) allRecs s
  split
  · next here => exact taken_cellSet t x r (held_withRole (by rw [CellRec.used, here]; simpa using ho) hn)
  · rfl

@[simp] theorem taken_dropServing (s : State) (x : Sub) : (s.dropServing x).taken = s.taken :=
  taken_moveRole s x (by simp) (by simp)
@[simp] theorem taken_dropTarget (s : State) (x : Sub) : (s.dropTarget x).taken = s.taken :=
  taken_moveRole s x (by simp) (by simp)

@[simp] theorem taken_zeroDwell (s : State) (x : Sub) : (s.zeroDwell x).taken = s.taken :=
  taken_foldl (fun t r => taken_cellSet t x r rfl) _ s

@[simp] theorem taken_clearFailRun (s : State) (x : Sub) : (s.clearFailRun x).taken = s.taken := by
  unfold State.clearFailRun
  split
  · exact taken_cellSet s x _ rfl
  · rfl

@[simp] theorem taken_completeProbe (s : State) (x : Sub) (r : Fin 18) (level : Option Nat) :
    (s.completeProbe x r level).taken = s.taken := by
  unfold State.completeProbe
  split
  · exact taken_cellUpd s x r rfl
  · rfl

@[simp] theorem taken_dropProbes (s : State) (x : Sub) : (s.dropProbes x).taken = s.taken :=
  taken_foldl (fun t r => taken_completeProbe t x r none) _ s

/-! ### Outcomes, and contexts freed (R19, R39) -/

@[simp] theorem taken_lendOutcome (s : State) (x : Sub) (e : Ending) : (s.lendOutcome x e).taken = s.taken := taken_subSet s x _
@[simp] theorem taken_windowMissed (s : State) (x : Sub) : (s.windowMissed x).taken = s.taken := taken_ite (taken_subSet s x _) rfl

@[simp] theorem taken_pagingOutcome (s : State) (x : Sub) (e : Ending) : (s.pagingOutcome x e).taken = s.taken := by
  unfold State.pagingOutcome
  cases e <;> simp

@[simp] theorem taken_callOutcome (s : State) (k : Fin 4) (o : Occ) (e : Ending) : (s.callOutcome k o e).taken = s.taken := by
  unfold State.callOutcome
  split
  · exact taken_ite (taken_downOutcome s k _ _ _) rfl
  · exact taken_upFinal s k _ _
  · exact taken_upFinal s k _ _
  · rfl

@[simp] theorem taken_deliverTo (s : State) (o : Occ) (e : Ending) (x : Sub) : (s.deliverTo o e x).taken = s.taken := by
  unfold State.deliverTo
  split
  · rfl
  · next w _ =>
    have paged : (if w.kind = .paging then s.pagingOutcome x e else s).taken = s.taken :=
      taken_ite (taken_pagingOutcome s x e) rfl
    dsimp only
    rw [← paged]
    split
    · exact taken_callOutcome _ _ _ _
    · exact taken_segmentOutcome _ _ _ _ _
    · exact taken_receiptOutcome _ _ _ _ _
    · rfl

@[simp] theorem taken_deliver (s : State) (o : Occ) (e : Ending) : (s.deliver o e).taken = s.taken := by simp [State.deliver]
@[simp] theorem taken_deliverDenials (s : State) (l : List (Occ × Denial)) : (s.deliverDenials l).taken = s.taken := by
  unfold State.deliverDenials
  exact taken_foldl (fun t p => taken_deliver t _ _) l s
@[simp] theorem taken_revoke (s : State) (c : Fin 3) (n : Nat) : (s.revoke c n).taken = s.taken := by simp [State.revoke]
@[simp] theorem taken_freeCtx (s : State) (c : Fin 3) : (s.freeCtx c).taken = s.taken := taken_revoke _ _ _

@[simp] theorem taken_removeUser (s : State) (c : Fin 3) (r : Role) (x : Sub) : (s.removeUser c r x).taken = s.taken := by
  refine taken_ite ?_ rfl
  have seeks : (if isSeek r = true then (s.modCtx c fun k => k.dropUser r x).withdrawSeek x c
      else s.modCtx c fun k => k.dropUser r x).taken = s.taken := taken_ite rfl rfl
  exact taken_ite ((taken_freeCtx _ c).trans seeks) seeks

@[simp] theorem taken_removeRole (s : State) (r : Role) (x : Sub) : (s.removeRole r x).taken = s.taken := by
  unfold State.removeRole
  dsimp only
  split
  · exact taken_removeUser _ _ _ _
  · rfl

@[simp] theorem taken_unstage (s : State) (k : Fin 4) : (s.unstage k).taken = s.taken := by
  refine taken_foldl (fun t c => ?_) allCtx s
  split
  · exact taken_ite rfl rfl
  · rfl

/-! ### Search passes, allocation and retries (R20 to R22, R64, R65) -/

@[simp] theorem taken_attempt (s : State) (x : Sub) (r : Fin 18) (rest : List (Fin 18)) :
    (s.attempt x r rest).taken = s.taken := by
  obtain ⟨v, l, attempts, -⟩ := attempt_frame s x r rest
  rw [attempts]
  exact taken_modSbc s x (f := fun b => b.attempting s x r rest) fun _ => rfl

theorem taken_tryRecords {s t : State} {x : Sub} {l : List (Fin 18)} (tried : s.tryRecords x l = some t) :
    t.taken = s.taken := by
  obtain ⟨r, rest, rfl⟩ := tryRecords_attempts tried
  exact taken_attempt s x r rest

@[simp] theorem taken_enterLost (s : State) (x : Sub) (c : ServiceCause) : (s.enterLost x c).taken = s.taken := by
  simp [State.enterLost]

@[simp] theorem taken_beginPass (s : State) (x : Sub) : (s.beginPass x).taken = s.taken := by
  unfold State.beginPass
  dsimp only
  split
  · next tried => rw [taken_tryRecords tried, taken_modSbc s x (by simp)]
  · simp

@[simp] theorem taken_nextAttempt (s : State) (x : Sub) : (s.nextAttempt x).taken = s.taken := by
  unfold State.nextAttempt
  split
  · rfl
  · dsimp only
    split
    · next tried => rw [taken_tryRecords tried, taken_modSbc s x (by simp)]
    · exact taken_ite (by simp) (by simp)

@[simp] theorem taken_searchPreempted (s : State) (x : Sub) : (s.searchPreempted x).taken = s.taken := by
  simp [State.searchPreempted]

@[simp] theorem taken_tellPreempted (s : State) (u : User) (k : Key) : (s.tellPreempted u k).taken = s.taken := by
  unfold State.tellPreempted
  split
  · exact taken_searchPreempted s u.sub
  · rfl
  · rfl

@[simp] theorem taken_preempt (s : State) (c : Fin 3) (u : User) (r : Role) (x : Sub) (k : Key) :
    (s.preempt c u r x k).taken = s.taken := by simp [State.preempt]

@[simp] theorem taken_allocate (s : State) (r : Role) (x : Sub) (k : Key) : (s.allocate r x k).taken = s.taken := by
  unfold State.allocate
  split
  · next joined =>
    obtain ⟨v, rfl⟩ := tryJoin_frame joined
    rfl
  · refine taken_ite rfl ?_
    split
    · exact taken_preempt _ _ _ _ _ _
    · rfl

@[simp] theorem taken_retry (s : State) (p : Deferred → Bool) : (s.retry p).taken = s.taken := by
  refine taken_foldl (fun t o => ?_) retryOrder s
  split
  · exact taken_ite (taken_allocate _ _ _ _) rfl
  · rfl

@[simp] theorem taken_retried (s : State) : s.retried.taken = s.taken := taken_ite (taken_retry s _) rfl

@[simp] theorem taken_finish (s0 s : State) : (s0.finish s).taken = s.taken := by
  obtain ⟨q, fin⟩ := finish_eq s0 s
  rw [fin]
  exact taken_retried s

/-! ### Leaving service, connecting, and calls that end (R61, R63, R75, R109, R147) -/

@[simp] theorem taken_noWindow (s : State) (x : Sub) : (s.noWindow x).taken = s.taken := taken_modSbc s x fun _ => rfl

@[simp] theorem taken_endListen (s : State) (x : Sub) : (s.endListen x).taken = s.taken := by
  unfold State.endListen
  split
  · rfl
  · exact (taken_withdraw _ _ _).trans (taken_subUpd s x _)

@[simp] theorem taken_dropReselection (s : State) (x : Sub) : (s.dropReselection x).taken = s.taken := taken_removeRole _ _ _
@[simp] theorem taken_discardRanking (s : State) (x : Sub) : (s.discardRanking x).taken = s.taken := by
  simp [State.discardRanking]

@[simp] theorem taken_leaveCell (s : State) (x : Sub) : (s.leaveCell x).taken = s.taken := by simp [State.leaveCell]

@[simp] theorem taken_closeCall (s : State) (k : Fin 4) (cause : CallCause) (byte : BitVec 8) :
    (s.closeCall k cause byte).taken = s.taken := by
  have withdrawn : (((s.flush k s.downReady).dropUplinks k).withdraw (s.call k).part.owner
      (ofCall (s.call k).part.owner k (s.holding k))).taken = s.taken := by simp
  unfold State.closeCall
  dsimp only
  rw [taken_callUpd _ k (by simp), taken_unstage, taken_modCall _ k (by simp)]
  exact taken_ite withdrawn withdrawn

@[simp] theorem taken_disableRinging (s : State) (x : Sub) : (s.disableRinging x).taken = s.taken :=
  taken_foldl (fun t k => taken_ite (taken_closeCall t k _ _) rfl) _ s

@[simp] theorem taken_goOff (s : State) (x : Sub) : (s.goOff x).taken = s.taken := by simp [State.goOff]

@[simp] theorem taken_connect (s : State) (x : Sub) : (s.connect x).taken = s.taken := by simp [State.connect]

end Sys2Proof.Machine
end

section
/-! SUPPORT. The take of SUBS: the settings it takes, and what the enables and disables among them leave (R57, R60 to R62, R74,
R185). -/

namespace Sys2Proof.Machine

/-! ### What follows a command leaves of the host port -/

/-- What follows a command changes no more of the host port than its PENDING bits. -/
theorem host_finish (s0 s : State) : (s0.finish s).exm.mem = s.exm.mem ∧ (s0.finish s).exm.scan = s.exm.scan ∧
    (s0.finish s).exm.fault = s.exm.fault ∧ (s0.finish s).exm.run = s.exm.run := by
  have same := outer_retried s
  rw [exm_finish]
  exact ⟨congrArg Outer.mem same, congrArg Outer.scan same, congrArg Outer.fault same, congrArg Outer.run same⟩

/-! ### The settings taken (R57) -/

/-- The settings that a take would read depend on the host-written memory alone. -/
theorem readSettings_of_mem {s t : State} (mem : t.exm.mem = s.exm.mem) : t.readSettings = s.readSettings := by
  funext x
  simp only [State.readSettings, State.hostWord, mem]

@[simp] theorem outer_enableSub (s : State) (x : Sub) : (s.enableSub x).outer = s.outer :=
  keeps_ite (P := fun t => t.outer = s.outer) (by simp) (by simp)

@[simp] theorem outer_disableSub (s : State) (x : Sub) : (s.disableSub x).outer = s.outer := by
  unfold State.disableSub
  split <;> simp

theorem outer_takeSettings (s : State) (x : Sub) : (s.takeSettings x).outer = s.outer := by
  have acked : ((s.modSbc x fun b => { b with set := s.readSettings x }).ackArea x (s.readSettings x).ack).outer = s.outer := by
    simp [State.ackArea]
  unfold State.takeSettings
  refine keeps_ite (P := fun t => t.outer = s.outer) rfl ?_
  dsimp only
  split
  · exact (outer_enableSub _ x).trans acked
  · exact (outer_disableSub _ x).trans acked

@[simp] theorem taken_enableSub (s : State) (x : Sub) : (s.enableSub x).taken = s.taken :=
  taken_ite (by simp) (by simp)

@[simp] theorem taken_disableSub (s : State) (x : Sub) : (s.disableSub x).taken = s.taken := by
  unfold State.disableSub
  split <;> simp

/-- The take of one subscription's half leaves its settings as the host half has them. -/
theorem taken_takeSettings (s : State) (x : Sub) : (s.takeSettings x).taken =
    { s.taken with settings := fun y => if y = x then s.readSettings x else s.set y } := by
  unfold State.takeSettings
  dsimp only
  split
  · next same =>
    refine congrArg (fun v => { s.taken with settings := v }) (funext fun y => ?_)
    split
    · next here => rw [here, same]
    · rfl
  · have read : ((s.modSbc x fun b => { b with set := s.readSettings x }).ackArea x (s.readSettings x).ack).taken =
        { s.taken with settings := fun y => if y = x then s.readSettings x else s.set y } :=
      (taken_subSet _ x _).trans (taken_modSbc_eq s x _)
    split
    · exact (taken_enableSub _ x).trans read
    · exact (taken_disableSub _ x).trans read

/-- A take of SUBS leaves both settings as the host halves have them. -/
theorem taken_takeSubs (s : State) : s.takeSubs.taken = { s.taken with settings := s.readSettings } := by
  let t := s.scanClear .subs
  have mem : (t.takeSettings .a).exm.mem = s.exm.mem := State.mem_of_outer (s := t) (outer_takeSettings t .a)
  have first : (t.takeSettings .a).set = fun y => if y = .a then s.readSettings .a else s.set y :=
    congrArg Taken.settings (taken_takeSettings t .a)
  have both : (fun y => if y = .b then s.readSettings .b else if y = .a then s.readSettings .a else s.set y) =
      s.readSettings := funext fun y => by cases y <;> rfl
  change ((t.takeSettings .a).takeSettings .b).taken = _
  rw [taken_takeSettings, taken_takeSettings, first, readSettings_of_mem mem, both]
  rfl

theorem outer_takeSubs (s : State) : s.takeSubs.outer = (s.scanClear .subs).outer :=
  (outer_takeSettings _ .b).trans (outer_takeSettings _ .a)

theorem set_of_taken {t : State} {v : Taken} (h : t.taken = v) : t.set = v.settings := congrArg Taken.settings h

end Sys2Proof.Machine

open Sys2Proof Sys2Proof.Machine

/-- Settles O24: the take writes the settings, and neither an enable or disable nor a request retried touches them again. -/
theorem subsTakeReadsSettings : Obligations.SubsTakeReadsSettings := by
  intro s u dt time working posted
  refine ⟨_, block_of_passed time working posted, ?_⟩
  obtain ⟨mem, scan, fault, -⟩ := host_finish u u.takeSubs
  have outer := outer_takeSubs u
  have set := set_of_taken ((taken_finish u u.takeSubs).trans (taken_takeSubs u))
  have kept : u.takeSubs.exm.mem = u.exm.mem := congrArg Outer.mem outer
  refine ⟨scan.trans (congrArg Outer.scan outer), congrFun set, mem.trans (kept.trans (mem_passed time)), ?_⟩
  rw [fault, ← exm_advance dt s, ← time]
  exact congrArg Outer.fault outer
end

section
/-! SUPPORT. What a retry of the requests that wait can do to the search pass of one subscription: the pass may lose its context to
a request of higher priority, and goes on with its next record (R21, R22, R64, R65). -/

namespace Sys2Proof.Machine

/-! ### One subscription's side, whatever the other does -/

theorem ne_otherSub (x : Sub) : x ≠ otherSub x := by cases x <;> simp [otherSub]
theorem eq_otherSub_of_ne {x y : Sub} (h : y ≠ x) : y = otherSub x := by cases x <;> cases y <;> simp_all [otherSub]

/-- What is said of a subscription's side says nothing of its lending count, its missed windows and its change count. -/
def CountsBlind (R : SbcX → Prop) : Prop :=
  ∀ b n m v, R b → R { b with part := { b.part with lending := n, missed := m, change := v } }

/-- What is said of one subscription's side cannot be disturbed by what the other's search does. -/
theorem allocSteady_side {x : Sub} {R : SbcX → Prop} (blind : CountsBlind R) :
    AllocSteady (otherSub x) fun t => R (t.sbc.get x) where
  txu h := h
  clu h := h
  raise h := h
  counts {s y f} only h := by
    by_cases here : x = y
    · subst here
      have counted : ((s.subUpd x f).sbc.get x).part =
          { s.sub x with lending := (f (s.sub x)).lending, missed := (f (s.sub x)).missed, change := (s.sub x).change + 1 } := by
        refine (State.sub_subUpd_same s x f).trans ?_
        rw [only]
      have side : (s.subUpd x f).sbc.get x = { s.sbc.get x with part := ((s.subUpd x f).sbc.get x).part } := by
        simp [State.subUpd, State.modSbc, State.raise]
      rw [side, counted]
      exact blind _ _ _ _ h
    · have same : (s.subUpd y f).sbc.get x = s.sbc.get x := Pair.get_set_other _ here _
      rwa [same]
  rpl _ h := h
  cmu h := h
  mbu h := h
  recede {s f} _ h := by
    rwa [State.modSbc, Pair.get_set_other _ (ne_otherSub x)]
  wait h := h
  join h := h
  drop _ h := h
  take _ _ _ h := h

/-! ### A pass that loses its context (R65) -/

/-- The pass whose attempt has been pre-empted: its record comes once more at the end of the list. -/
def Search.displaced (p : Search) : Search :=
  match p.current with
  | some (r, _) => if p.again.contains r then p else { p with rest := p.rest ++ [r], again := r :: p.again }
  | none => p

theorem changed_displaced (p : Search) : p.displaced.changed = p.changed := by
  unfold Search.displaced
  split
  · split <;> rfl
  · rfl

/-- The subscription's side as its attempt is pre-empted. -/
def State.passDisplaced (s : State) (x : Sub) : State :=
  s.modSbc x fun b => { b with search := b.search.map Search.displaced }

theorem searchPreempted_eq (s : State) (x : Sub) : s.searchPreempted x = (s.passDisplaced x).nextAttempt x := rfl

theorem side_passDisplaced (s : State) (x : Sub) :
    (s.passDisplaced x).sbc.get x = { s.sbc.get x with search := (s.sbc.get x).search.map Search.displaced } := by
  simp [State.passDisplaced, State.modSbc]

/-- A subscription that holds no pass has none to lose. -/
theorem side_searchPreempted_of_none {s : State} {x : Sub} (idle : (s.sbc.get x).search = none) :
    (s.searchPreempted x).sbc.get x = s.sbc.get x := by
  have side : (s.passDisplaced x).sbc.get x = s.sbc.get x := by
    rw [side_passDisplaced, idle]
    exact congrArg (fun p => { s.sbc.get x with search := p }) idle.symm
  have stays : (s.passDisplaced x).nextAttempt x = s.passDisplaced x := by
    unfold State.nextAttempt
    rw [side, idle]
  rw [searchPreempted_eq, stays, side]

/-- The attempt of a pass has ended, with a record that may be tried among the rest: one is tried. -/
theorem nextAttempt_of_tryable {s : State} {x : Sub} {p : Search} (pass : (s.sbc.get x).search = some p)
    (any : ∃ r ∈ p.rest, s.tryable x r = true) :
    ∃ r rest, s.nextAttempt x = (s.attemptOver x p).attempt x r rest := by
  obtain ⟨r, rest, -, tried⟩ := tryRecords_of_tryable (s := s.attemptOver x p) any
  refine ⟨r, rest, ?_⟩
  unfold State.nextAttempt
  rw [pass]
  dsimp only
  rw [← State.attemptOver, tried]

/-- The attempt of a pass has ended, with none that may be tried among the rest and the table as it was. -/
theorem nextAttempt_of_untryable {s : State} {x : Sub} {p : Search} (pass : (s.sbc.get x).search = some p)
    (untryable : ∀ r ∈ p.rest, s.tryable x r = false) (same : p.changed = false) :
    s.nextAttempt x = (s.attemptOver x p).enterLost x .notFound := by
  have untried : (s.attemptOver x p).tryRecords x p.rest = none := tryRecords_of_none untryable
  unfold State.nextAttempt
  rw [pass]
  dsimp only
  rw [← State.attemptOver, untried]
  exact if_neg (by simp [same])

theorem side_attempt (s : State) (x : Sub) (r : Fin 18) (rest : List (Fin 18)) :
    (s.attempt x r rest).sbc.get x = (s.sbc.get x).attempting s x r rest := by
  obtain ⟨v, l, attempts, -⟩ := attempt_frame s x r rest
  rw [attempts]
  exact Pair.get_set_same _ _ _

theorem side_attemptOver (s : State) (x : Sub) (p : Search) :
    (s.attemptOver x p).sbc.get x = { s.sbc.get x with search := some { p with current := none } } := by
  simp [State.attemptOver, State.modSbc]

/-! ### What stays said of a side (R63, R64, R67) -/

/-- SEARCHING with a cause, by a pass in which the table has not changed, or LOST with no pass. -/
def SbcX.searchesOrLost (c : ServiceCause) (b : SbcX) : Prop :=
  (b.part.state = .searching ∧ b.part.cause = c ∧ ∀ p, b.search = some p → p.changed = false) ∨
    (b.part.state = .lost ∧ b.search = none)

/-- SEARCHING with a cause. -/
def SbcX.searches (c : ServiceCause) (b : SbcX) : Prop := b.part.state = .searching ∧ b.part.cause = c

theorem blind_searchesOrLost (c : ServiceCause) : CountsBlind (SbcX.searchesOrLost c) := fun _ _ _ _ h => h
theorem blind_searches (c : ServiceCause) : CountsBlind (SbcX.searches c) := fun _ _ _ _ h => h
theorem blind_lostAt (n : Nat) : CountsBlind (SbcX.lostAt n) := fun _ _ _ _ h => h

theorem lostAt_searchPreempted {s : State} {x : Sub} {n : Nat} (h : (s.sbc.get x).lostAt n) :
    ((s.searchPreempted x).sbc.get x).lostAt n := by
  rwa [side_searchPreempted_of_none h.2.2.2]

/-- A pass that loses its context goes on with its next record, or ends in LOST. -/
theorem searchesOrLost_searchPreempted {s : State} {x : Sub} {c : ServiceCause} (h : (s.sbc.get x).searchesOrLost c) :
    ((s.searchPreempted x).sbc.get x).searchesOrLost c := by
  cases pass : (s.sbc.get x).search with
  | none => rwa [side_searchPreempted_of_none pass]
  | some p =>
    rcases h with ⟨state, cause, same⟩ | ⟨-, idle⟩
    · have displaced : ((s.passDisplaced x).sbc.get x).search = some p.displaced := by
        rw [side_passDisplaced, pass]; rfl
      have unchanged : p.displaced.changed = false := (changed_displaced p).trans (same p pass)
      rw [searchPreempted_eq]
      by_cases any : ∃ r ∈ p.displaced.rest, (s.passDisplaced x).tryable x r = true
      · obtain ⟨r, rest, attempts⟩ := nextAttempt_of_tryable displaced any
        rw [attempts, side_attempt, side_attemptOver, side_passDisplaced]
        refine .inl ⟨state, cause, fun q hq => ?_⟩
        cases hq
        exact unchanged
      · rw [nextAttempt_of_untryable displaced (by simpa using any) unchanged]
        obtain ⟨-, lost, -, -⟩ := enterLost_state ((s.passDisplaced x).attemptOver x p.displaced) x .notFound
        exact .inr ⟨lost, search_enterLost _ _ _⟩
    · rw [idle] at pass
      contradiction

/-- A pass just begun: the record of its attempt may be tried, and no record has been pre-empted before. -/
def State.passFresh (x : Sub) (c : ServiceCause) (t : State) : Prop :=
  (t.sbc.get x).searches c ∧
    ∃ p r k, (t.sbc.get x).search = some p ∧ p.current = some (r, k) ∧ p.again = [] ∧ t.tryable x r = true

/-- A pass just begun that loses its context has its record to try again. -/
theorem searches_searchPreempted {s : State} {x : Sub} {c : ServiceCause} (h : s.passFresh x c) :
    ((s.searchPreempted x).sbc.get x).searches c := by
  obtain ⟨searching, p, r, k, pass, current, first, tryable⟩ := h
  have again : p.displaced = { p with rest := p.rest ++ [r], again := [r] } := by
    unfold Search.displaced
    rw [current, first]
    rfl
  have displaced : ((s.passDisplaced x).sbc.get x).search = some p.displaced := by
    rw [side_passDisplaced, pass]; rfl
  obtain ⟨q, rest, attempts⟩ := nextAttempt_of_tryable displaced
    ⟨r, by rw [again]; exact List.mem_append_right _ (List.mem_singleton_self r), tryable⟩
  rw [searchPreempted_eq, attempts, side_attempt, side_attemptOver, side_passDisplaced]
  exact searching

/-! ### Requests retried (R21, R22) -/

/-- An allocation request leads from what is said before it to what is said after it, if the loss of the pass's context does. -/
theorem allocate_leads {x : Sub} {P Q : State → Prop} (A : AllocSteady (otherSub x) Q)
    (seats : ∀ {s : State} {v : Vector Ctx 3} {l : List Deferred}, P s → P { s with tmu := { s.tmu with ctx := v, deferred := l } })
    (weaker : ∀ {s : State}, P s → Q s) (own : ∀ {s : State}, P s → Q (s.searchPreempted x))
    {s : State} (r : Role) (y : Sub) (k : Key) (h : P s) : Q (s.allocate r y k) := by
  have waits : Q (s.defer r y k) :=
    weaker (s := s.defer r y k) (seats (s := s) (v := s.tmu.ctx) (l := (s.defer r y k).tmu.deferred) h)
  unfold State.allocate
  split
  · next joined =>
    obtain ⟨v, rfl⟩ := tryJoin_frame joined
    exact weaker (seats h)
  · split
    · exact waits
    · split
      · next c u victim =>
        obtain ⟨lone, seeks⟩ := victim_lone victim
        have vacant : (s.ctx c).vacant := .inr fun w hw serving => by
          rw [lone, List.mem_singleton] at hw
          rw [← hw, serving] at seeks
          contradiction
        have left : P (s.modCtx c fun t => { t with users := [] }) := seats (l := s.tmu.deferred) h
        have told : Q ((s.modCtx c fun t => { t with users := [] }).tellPreempted u (s.ctx c).key) := by
          unfold State.tellPreempted
          split
          · by_cases here : u.sub = x
            · rw [here]
              exact own left
            · rw [eq_otherSub_of_ne here]
              exact A.searchPreempted (weaker left)
          · exact A.modMbu (weaker left)
          · exact weaker left
        exact A.revoke (A.take (weaker h) vacant (keepsAlloc_seekFor _ _ _) told)
      · exact waits

/-- The turn of one role and subscription in a retry of the requests that `p` picks. -/
def State.retryTurn (stood : List Deferred) (p : Deferred → Bool) (s : State) (o : Role × Sub) : State :=
  match s.tmu.deferred.find? fun d => d.role == o.1 && d.sub == o.2 with
  | some d => if p d && stood.contains d then (s.cancelDeferred d.role d.sub).allocate d.role d.sub d.key else s
  | none => s

theorem retry_eq (s : State) (p : Deferred → Bool) :
    s.retry p = retryOrder.foldl (State.retryTurn s.tmu.deferred p) s := rfl

/-- A turn retries a request that stood as the retry began, or does nothing. -/
theorem retryTurn_cases (stood : List Deferred) (p : Deferred → Bool) (s : State) (r : Role) (y : Sub) :
    s.retryTurn stood p (r, y) = s ∨
      (∃ d ∈ stood, d.role = r ∧ d.sub = y) ∧ ∃ k, s.retryTurn stood p (r, y) = (s.cancelDeferred r y).allocate r y k := by
  unfold State.retryTurn
  split
  · next d found =>
    split
    · next picked =>
      have named := List.find?_some found
      simp only [Bool.and_eq_true, beq_iff_eq, List.contains_iff_mem] at named picked
      obtain ⟨rfl, rfl⟩ := named
      exact .inr ⟨⟨d, picked.2, rfl, rfl⟩, d.key, rfl⟩
    · exact .inl rfl
  · exact .inl rfl

theorem retryTurn_of_none {stood : List Deferred} {r : Role} {y : Sub} (absent : ∀ d ∈ stood, ¬(d.role = r ∧ d.sub = y))
    (p : Deferred → Bool) (s : State) : s.retryTurn stood p (r, y) = s := by
  rcases retryTurn_cases stood p s r y with same | ⟨⟨d, hd, named⟩, -⟩
  · exact same
  · exact absurd named (absent d hd)

/-- Whatever is said of a side stays said over the retries, if it does as the side's pass loses its context. -/
theorem side_retried {x : Sub} {R : SbcX → Prop} (blind : CountsBlind R)
    (own : ∀ {s : State}, R (s.sbc.get x) → R ((s.searchPreempted x).sbc.get x)) {s : State} (h : R (s.sbc.get x)) :
    R (s.retried.sbc.get x) := by
  refine keeps_ite (P := fun t => R (t.sbc.get x)) ?_ h
  rw [retry_eq]
  refine keeps_foldl (P := fun t => R (t.sbc.get x)) retryOrder (fun o _ t ht => ?_) h
  rcases retryTurn_cases s.tmu.deferred (fun _ => true) t o.1 o.2 with same | ⟨-, k, retries⟩
  · rw [same]
    exact ht
  · rw [retries]
    exact allocate_leads (P := fun t => R (t.sbc.get x)) (allocSteady_side blind) id id own o.1 o.2 k ht

/-- A SEARCH request takes no context from another, and touches no subscription's side. -/
theorem sbc_allocate_search (s : State) (y : Sub) (k : Key) : (s.allocate .search y k).sbc = s.sbc := by
  unfold State.allocate
  split
  · next joined =>
    obtain ⟨v, rfl⟩ := tryJoin_frame joined
    rfl
  · rw [victim_search]
    exact keeps_ite (P := fun t => t.sbc = s.sbc) rfl rfl

/-- With no request for a TARGET waiting and none for the subscription's own VERIFY, one request at the most can take the context of
a pass just begun: the subscription goes on searching. -/
theorem searches_retried {s : State} {x : Sub} {c : ServiceCause}
    (stood : ∀ d ∈ s.tmu.deferred, d.role ≠ .target ∧ ¬(d.role = .verify ∧ d.sub = x)) (h : s.passFresh x c) :
    (s.retried.sbc.get x).searches c := by
  refine keeps_ite (P := fun t => (t.sbc.get x).searches c) ?_ h.1
  rw [retry_eq]
  let turn := State.retryTurn s.tmu.deferred fun _ => true
  have target (t : State) (y : Sub) : turn t (.target, y) = t :=
    retryTurn_of_none (fun d hd named => (stood d hd).1 named.1) _ t
  have verify (t : State) : turn t (.verify, x) = t := retryTurn_of_none (fun d hd => (stood d hd).2) _ t
  have search (t : State) (y : Sub) (ht : (t.sbc.get x).searches c) : ((turn t (.search, y)).sbc.get x).searches c := by
    change ((State.retryTurn _ _ t _).sbc.get x).searches c
    rcases retryTurn_cases s.tmu.deferred (fun _ => true) t .search y with same | ⟨-, k, retries⟩
    · rwa [same]
    · rw [retries, sbc_allocate_search]
      exact ht
  have other : ((turn s (.verify, otherSub x)).sbc.get x).searches c := by
    change ((State.retryTurn _ _ s _).sbc.get x).searches c
    rcases retryTurn_cases s.tmu.deferred (fun _ => true) s .verify (otherSub x) with same | ⟨-, k, retries⟩
    · rw [same]
      exact h.1
    · rw [retries]
      exact allocate_leads (P := State.passFresh x c) (allocSteady_side (blind_searches c)) id (fun h => h.1)
        searches_searchPreempted .verify _ k h
  change ((turn (turn (turn (turn (turn (turn s (.target, .a)) (.target, .b)) (.verify, .a)) (.verify, .b)) (.search, .a))
    (.search, .b)).sbc.get x).searches c
  rw [target, target]
  refine search _ .b (search _ .a ?_)
  cases x with
  | a => rw [verify s]; exact other
  | b => rw [verify]; exact other

end Sys2Proof.Machine
end

section
/-! SUPPORT. A CAMPED subscription that goes searching: what it gives up, the pass it begins, and the requests retried in the contexts
that it leaves (R63, R64, R67, R68, R88). -/

namespace Sys2Proof.Machine

/-! ### Records that may be tried (R64) -/

theorem tryable_of_taken {s t : State} (taken : t.taken = s.taken) (now : t.now = s.now) (x : Sub) (r : Fin 18) :
    t.tryable x r = s.tryable x r := by
  have held : (t.cell x r).held = (s.cell x r).held := congrFun (congrFun (congrArg Taken.cells taken) x) r
  have used : (t.cell x r).used = (s.cell x r).used := congrArg CellHeld.used held
  have barred : (t.cell x r).barredUntil = (s.cell x r).barredUntil := congrArg CellHeld.barred held
  simp only [State.tryable, State.barred, used, barred, now]

/-! ### Requests that still wait once a cell is left (R22, R61, R63) -/

theorem deferred_removeUser (s : State) (c : Fin 3) (r : Role) (x : Sub) :
    (s.removeUser c r x).tmu.deferred = s.tmu.deferred := (seatsOnly_removeUser s c r x).deferred

/-- A role removed takes its request that waits with it, and no other. -/
theorem mem_deferred_removeRole {s : State} {r : Role} {x : Sub} {d : Deferred}
    (waits : d ∈ (s.removeRole r x).tmu.deferred) : d ∈ s.tmu.deferred ∧ ¬(d.role = r ∧ d.sub = x) := by
  have cancelled : d ∈ (s.cancelDeferred r x).tmu.deferred := by
    unfold State.removeRole at waits
    dsimp only at waits
    split at waits
    · rwa [deferred_removeUser] at waits
    · exact waits
  obtain ⟨waited, other⟩ := List.mem_filter.1 cancelled
  exact ⟨waited, fun ⟨role, sub⟩ => by simp [role, sub] at other⟩

theorem Steady.dropCollecting {P : State → Prop} (S : Steady P) {s : State} {x : Sub} (h : P s) : P (s.dropCollecting x) :=
  S.dropReasm h

theorem tableSteady_tmu (v : Tmu) : TableSteady fun t => t.tmu = v where
  toSteady := steady_tmu v
  cmu h := h
  mbu h := h

theorem tmu_endListen (s : State) (x : Sub) : (s.endListen x).tmu = s.tmu := by
  unfold State.endListen
  split <;> rfl

/-- A ranking discarded leaves no VERIFY request. -/
theorem mem_deferred_discardRanking {s : State} {x : Sub} {d : Deferred}
    (waits : d ∈ (s.discardRanking x).tmu.deferred) : d ∈ s.tmu.deferred ∧ ¬(d.role = .verify ∧ d.sub = x) := by
  unfold State.discardRanking at waits
  rw [(tableSteady_tmu _).zeroDwell (x := x) rfl] at waits
  exact mem_deferred_removeRole (s := s.modMbu x _) waits

/-- A subscription that leaves its cell leaves no VERIFY request of its own, and brings none about. -/
theorem mem_deferred_leaveCell {s : State} {x : Sub} {d : Deferred} (waits : d ∈ (s.leaveCell x).tmu.deferred) :
    d ∈ s.tmu.deferred ∧ ¬(d.role = .verify ∧ d.sub = x) := by
  unfold State.leaveCell at waits
  dsimp only at waits
  rw [State.tmu_setDecline] at waits
  obtain ⟨waits, verify⟩ := mem_deferred_discardRanking waits
  rw [State.resetMachine, State.tmu_modMachine, State.tmu_subSet, (tableSteady_tmu _).dropTarget (x := x) rfl,
    (tableSteady_tmu _).dropServing (x := x) rfl, State.noWindow, State.tmu_modSbc, tmu_endListen, State.withdrawAll,
    State.tmu_withdraw] at waits
  have seekers := (mem_deferred_removeRole waits).1
  exact ⟨(mem_deferred_removeRole (mem_deferred_removeRole (mem_deferred_removeRole seekers).1).1).1, verify⟩

/-! ### The way into SEARCHING (R63) -/

/-- The state in which the pass of a subscription that goes searching begins. -/
def State.serviceLeft (s : State) (x : Sub) (c : ServiceCause) : State :=
  (((((s.leaveCell x).subUpd x fun r => { r with state := .searching, cause := c }).textsLost x).dropCollecting
    x).dropReceipts x).dropProbes x

theorem enterSearching_eq (s : State) (x : Sub) (c : ServiceCause) :
    s.enterSearching x c = (s.serviceLeft x c).beginPass x := rfl

theorem searches_serviceLeft (s : State) (x : Sub) (c : ServiceCause) : ((s.serviceLeft x c).sbc.get x).searches c := by
  have A := allocSteady_side (x := x) (blind_searches c)
  refine A.dropProbes (A.dropReceipts (A.dropReasm (A.textsLost ?_)))
  have here := State.sub_subUpd_same (s.leaveCell x) x fun r => { r with state := .searching, cause := c }
  exact ⟨congrArg SubRec.state here, congrArg SubRec.cause here⟩

theorem now_serviceLeft (s : State) (x : Sub) (c : ServiceCause) : (s.serviceLeft x c).now = s.now :=
  State.now_of_outer (by simp [State.serviceLeft])

theorem tryable_serviceLeft (s : State) (x : Sub) (c : ServiceCause) (y : Sub) (r : Fin 18) :
    (s.serviceLeft x c).tryable y r = s.tryable y r :=
  tryable_of_taken (by simp [State.serviceLeft]) (now_serviceLeft s x c) y r

theorem deferred_serviceLeft (s : State) (x : Sub) (c : ServiceCause) :
    (s.serviceLeft x c).tmu.deferred = (s.leaveCell x).tmu.deferred := by
  rw [State.serviceLeft, (dropProbes_frame _ x).2]
  generalize s.leaveCell x = v
  have O := offerSteady_deferred v.tmu.deferred
  exact O.dropReceipts (x := x) (O.dropCollecting (x := x) (O.textsLost (x := x)
    (O.subUpd (x := x) (f := fun r => { r with state := .searching, cause := c }) rfl)))

/-- With a record to try, a subscription that goes searching has a pass just begun. -/
theorem passFresh_enterSearching {s : State} {x : Sub} (c : ServiceCause) (any : ∃ r ∈ hostRecs, s.tryable x r = true) :
    (s.enterSearching x c).passFresh x c ∧
      SearchesJoin (s.leaveCell x).tmu.deferred (s.enterSearching x c).tmu.deferred := by
  have searching := searches_serviceLeft s x c
  obtain ⟨r, rest, v, l, tryable, joins, begins⟩ := beginPass_of_tryable (s := s.serviceLeft x c) (x := x)
    (by simpa only [tryable_serviceLeft] using any)
  rw [deferred_serviceLeft] at joins
  rw [enterSearching_eq, begins]
  refine ⟨⟨?_, ?_⟩, joins⟩
  · rw [Pair.get_set_same]
    exact searching
  · rw [Pair.get_set_same]
    exact ⟨_, r, _, rfl, rfl, rfl, tryable⟩

/-- With none to try, it is LOST at once. -/
theorem lostAt_enterSearching {s : State} {x : Sub} (c : ServiceCause) (untryable : ∀ r ∈ hostRecs, s.tryable x r = false) :
    ((s.enterSearching x c).sbc.get x).lostAt s.now := by
  have ends := (lostAt_beginPass (s := s.serviceLeft x c) (x := x) (by simpa only [tryable_serviceLeft] using untryable)).1
  rwa [now_serviceLeft] at ends

theorem searchesOrLost_enterSearching (s : State) (x : Sub) (c : ServiceCause) :
    ((s.enterSearching x c).sbc.get x).searchesOrLost c := by
  by_cases any : ∃ r ∈ hostRecs, s.tryable x r = true
  · have searching := searches_serviceLeft s x c
    obtain ⟨r, rest, v, l, -, -, begins⟩ := beginPass_of_tryable (s := s.serviceLeft x c) (x := x)
      (by simpa only [tryable_serviceLeft] using any)
    rw [enterSearching_eq, begins, Pair.get_set_same]
    refine .inl ⟨searching.1, searching.2, fun p hp => ?_⟩
    cases hp
    rfl
  · obtain ⟨state, -, -, idle⟩ := lostAt_enterSearching c (s := s) (x := x) (by simpa using any)
    exact .inr ⟨state, idle⟩

/-- What a subscription that goes searching is left with once the command is over. -/
structure GoesSearching (u : State) (x : Sub) (c : ServiceCause) (t : State) : Prop where
  serving   : (t.sub x).serving = none
  either    : ((t.sub x).state = .searching ∧ (t.sub x).cause = c) ∨ (t.sub x).state = .lost
  searching : (∀ d ∈ u.tmu.deferred, d.role ≠ .target) → (∃ r ∈ hostRecs, u.tryable x r = true) →
    (t.sub x).state = .searching ∧ (t.sub x).cause = c
  lost      : (∀ r ∈ hostRecs, u.tryable x r = false) →
    (t.sub x).state = .lost ∧ (t.sub x).cause = .noCells ∧ (t.sbc.get x).lostRetry = some (u.now + lostWait)

theorem goesSearching (s0 u : State) (x : Sub) (c : ServiceCause) :
    GoesSearching u x c (s0.finish (u.enterSearching x c)) := by
  have out := AllocSteady.retried (fun y => (serviceSteady_outOf y x).toAlloc) (outOf_enterSearching u x c)
  have either := side_retried (blind_searchesOrLost c) searchesOrLost_searchPreempted (searchesOrLost_enterSearching u x c)
  constructor
  · rw [State.sub, sbc_finish]
    exact out.1
  · rw [State.sub, sbc_finish]
    rcases either with ⟨state, cause, -⟩ | ⟨lost, -⟩
    · exact .inl ⟨state, cause⟩
    · exact .inr lost
  · intro untargeted any
    obtain ⟨fresh, joins⟩ := passFresh_enterSearching c any
    rw [State.sub, sbc_finish]
    refine searches_retried (fun d hd => ?_) fresh
    rcases joins d hd with waited | search
    · obtain ⟨waited, verify⟩ := mem_deferred_leaveCell waited
      exact ⟨untargeted d waited, verify⟩
    · simp [search]
  · intro untryable
    rw [State.sub, sbc_finish]
    obtain ⟨state, cause, retry, -⟩ := side_retried (blind_lostAt u.now) lostAt_searchPreempted
      (lostAt_enterSearching c untryable)
    exact ⟨state, cause, retry⟩

/-! ### The limits (R68, R88) -/

theorem execWindowsMissed_of_missed {s u : State} {dt : Nat} {x : Sub} (time : u = s.advance dt)
    (working : u.working = true) (camped : (u.sub x).state = .camped) (missed : 4 ≤ (u.sub x).missed) :
    execWindowsMissed dt x s = .next (u.finish (u.enterSearching x .windowsMissed)) :=
  block_of_passed (g := fun s => s.windowsOut x) time working (by simp [State.windowsOut, camped, windowLimit, missed])

theorem execFailRun_of_run {s u : State} {dt : Nat} {x : Sub} {r : Fin 18} (time : u = s.advance dt)
    (working : u.working = true) (camped : (u.sub x).state = .camped) (serving : u.recordIn x .serving = some r)
    (run : 8 ≤ (u.cell x r).failRun) : execFailRun dt x s = .next (u.finish (u.enterSearching x .failRun)) :=
  block_of_passed (g := fun s => s.failRunAt x .camped idleFailLimit) time working
    (by simp [State.failRunAt, camped, serving, idleFailLimit, run])

end Sys2Proof.Machine

open Sys2Proof Sys2Proof.Machine

/-- Settles O41: both limits send the subscription searching, and of the requests retried in the contexts it leaves one at the most
takes the context of its pass, whose record then comes once more. -/
theorem campedFailuresSearch : Obligations.CampedFailuresSearch := by
  intro s u dt x time working camped
  refine ⟨fun missed => ?_, fun r serving run => ?_⟩
  · obtain ⟨serving, either, searching, lost⟩ := goesSearching u u x .windowsMissed
    exact ⟨_, execWindowsMissed_of_missed time working camped missed, serving, either, searching, lost⟩
  · obtain ⟨unserved, either, searching, lost⟩ := goesSearching u u x .failRun
    exact ⟨_, execFailRun_of_run time working camped serving run, unserved, either, searching, lost⟩
end

section
/-! SUPPORT. The takes of the scans (R57, R80, R133, R153, R168, R184, R185): what each area's take leaves the blocks holding of the
host's halves, and that it leaves them what they hold of the others. -/

namespace Sys2Proof.Machine

/-! ### Turns that settle one record each -/

/-- A fold whose turns each settle their own record and leave the others settled leaves all of them settled. -/
theorem settles_foldl {α : Type} {S : α → State → Prop} {f : State → α → State} (l : List α)
    (here : ∀ a ∈ l, ∀ s, S a (f s a)) (keeps : ∀ a ∈ l, ∀ b s, S b s → S b (f s a)) (s : State) :
    ∀ a ∈ l, S a (l.foldl f s) := by
  induction l generalizing s with
  | nil => simp
  | cons b l ih =>
    intro a mem
    rcases List.mem_cons.1 mem with rfl | later
    · exact keeps_foldl (P := S a) l (fun c hc t ht => keeps c (List.mem_cons_of_mem a hc) a t ht)
        (here a List.mem_cons_self s)
    · exact ih (fun c hc => here c (List.mem_cons_of_mem b hc)) (fun c hc => keeps c (List.mem_cons_of_mem b hc)) _ a later

/-! ### The host's halves, as the host-written memory has them (R76, R131, R151, R168, R184) -/

theorem hostWord_of_mem {s t : State} (mem : t.exm.mem = s.exm.mem) : t.hostWord = s.hostWord := by
  funext off
  rw [State.hostWord, mem, State.hostWord]

theorem readCell_of_mem {s t : State} (mem : t.exm.mem = s.exm.mem) : t.readCell = s.readCell := by
  funext x r
  unfold State.readCell
  rw [hostWord_of_mem mem]
theorem callStamp_of_mem {s t : State} (mem : t.exm.mem = s.exm.mem) : t.callStamp = s.callStamp := by
  funext k
  unfold State.callStamp
  rw [hostWord_of_mem mem]
theorem callNotify_of_mem {s t : State} (mem : t.exm.mem = s.exm.mem) : t.callNotify = s.callNotify := by
  funext k
  unfold State.callNotify
  rw [hostWord_of_mem mem]
theorem outStamp_of_mem {s t : State} (mem : t.exm.mem = s.exm.mem) : t.outStamp = s.outStamp := by
  funext i
  unfold State.outStamp
  rw [hostWord_of_mem mem]
theorem outNotify_of_mem {s t : State} (mem : t.exm.mem = s.exm.mem) : t.outNotify = s.outNotify := by
  funext i
  unfold State.outNotify
  rw [hostWord_of_mem mem]
theorem inRelease_of_mem {s t : State} (mem : t.exm.mem = s.exm.mem) : t.inRelease = s.inRelease := by
  funext i
  unfold State.inRelease
  rw [hostWord_of_mem mem]
theorem faultAck_of_mem {s t : State} (mem : t.exm.mem = s.exm.mem) : t.faultAck = s.faultAck := by
  unfold State.faultAck
  rw [hostWord_of_mem mem]

/-! ### CELLS (R80 to R83, R87, R93) -/

/-- A record holds what a host half says: in use or not, with its offset, and in use with its key. -/
def CellHeld.follows (c : CellHeld) (h : CellSettings) : Prop :=
  c.used = h.inUse ∧ c.offset = h.offset ∧ (h.inUse = true → c.key = h.key)

/-- A host record holds what its host half says. -/
def State.cellFollows (x : Sub) (r : Fin 18) (t : State) : Prop :=
  r.val < 16 → (t.taken.cells x r).follows (t.readCell x r)

/-- The cell records change alone of what the blocks hold of the host's halves. -/
def CellsOnly (s t : State) : Prop := ∃ v, t.taken = { s.taken with cells := v }

theorem CellsOnly.of_taken {s t : State} (h : t.taken = s.taken) : CellsOnly s t := ⟨s.taken.cells, h⟩

theorem CellsOnly.trans {s t u : State} (first : CellsOnly s t) (second : CellsOnly t u) : CellsOnly s u := by
  obtain ⟨v, hv⟩ := first
  obtain ⟨w, hw⟩ := second
  exact ⟨w, by rw [hw, hv]⟩

theorem CellsOnly.foldl {α : Type} {f : State → α → State} (turn : ∀ s a, CellsOnly s (f s a)) (l : List α) (s : State) :
    CellsOnly s (l.foldl f s) :=
  keeps_foldl (P := CellsOnly s) l (fun a _ t ht => ht.trans (turn t a)) (.of_taken rfl)

theorem cellsOnly_cellUpd (s : State) (x : Sub) (r : Fin 18) (f : CellRec → CellRec) : CellsOnly s (s.cellUpd x r f) :=
  ⟨(s.cellUpd x r f).taken.cells, rfl⟩

theorem held_modCell (s : State) (x : Sub) (r : Fin 18) (f : CellRec → CellRec) (y : Sub) (q : Fin 18) :
    (s.modCell x r f).taken.cells y q = if y = x ∧ q = r then (f (s.cell x r)).held else s.taken.cells y q := by
  change ((s.modCell x r f).cell y q).held = _
  by_cases here : y = x
  · subst here
    by_cases same : q = r
    · subst same
      rw [State.cell_modCell_same, if_pos ⟨rfl, rfl⟩]
    · rw [State.cell_modCell_other s y same, if_neg (by simp [same])]
      rfl
  · rw [State.cell_modCell_sub s here, if_neg (by simp [here])]
    rfl

theorem held_cellUpd (s : State) (x : Sub) (r : Fin 18) (f : CellRec → CellRec) (y : Sub) (q : Fin 18) :
    (s.cellUpd x r f).taken.cells y q = if y = x ∧ q = r then (f (s.cell x r)).held else s.taken.cells y q :=
  held_modCell s x r (fun c => { f c with change := c.change + 1 }) y q

@[simp] theorem taken_followMeasured (s : State) (x : Sub) (old new : Fin 18) :
    (s.followMeasured x old new).taken = s.taken := taken_foldl (fun t c => taken_modCtx t c _) allCtx s

@[simp] theorem taken_follow (s : State) (x : Sub) (old new : Fin 18) : (s.follow x old new).taken = s.taken := by
  unfold State.follow
  dsimp only
  rw [taken_modMbu, taken_followMeasured]
  exact taken_ite (by simp) (by simp)

theorem guestToTake_guest (s : State) (x : Sub) : 16 ≤ (s.guestToTake x).val := by
  unfold State.guestToTake
  dsimp only
  split_ifs <;> decide

/-- A record moved to a guest changes no host record (R81). -/
theorem held_moveToGuest (s : State) (x : Sub) (r : Fin 18) {y : Sub} {q : Fin 18} (host : q.val < 16) :
    (s.moveToGuest x r).taken.cells y q = s.taken.cells y q := by
  have guest := guestToTake_guest s x
  unfold State.moveToGuest State.takeGuest
  dsimp only
  rw [taken_follow, held_cellUpd, if_neg (fun same => by rw [same.2] at host; omega)]
  rfl

theorem cellsOnly_moveToGuest (s : State) (x : Sub) (r : Fin 18) : CellsOnly s (s.moveToGuest x r) := by
  unfold State.moveToGuest
  exact (cellsOnly_cellUpd (s.modMbu x _) x _ _).trans (.of_taken (taken_follow _ _ _ _))

theorem cellsOnly_takeUse (s : State) (x : Sub) (r : Fin 18) (h : CellSettings) : CellsOnly s (s.takeUse x r h) := by
  unfold State.takeUse
  split
  · refine CellsOnly.trans ?_ (cellsOnly_cellUpd _ x r _)
    split
    · exact cellsOnly_moveToGuest s x r
    · exact .of_taken rfl
  · exact .of_taken rfl

/-- The change of a record's use and key changes no other host record. -/
theorem held_takeUse_other (s : State) {x : Sub} {r : Fin 18} (h : CellSettings) {y : Sub} {q : Fin 18} (host : q.val < 16)
    (other : ¬(y = x ∧ q = r)) : (s.takeUse x r h).taken.cells y q = s.taken.cells y q := by
  unfold State.takeUse
  split
  · dsimp only
    rw [held_cellUpd, if_neg other]
    split
    · exact held_moveToGuest s x r host
    · rfl
  · rfl

/-- A host record comes into use or goes out of use, and in use has its key, as its host half says (R80). -/
theorem held_takeUse_same (s : State) (x : Sub) (r : Fin 18) (h : CellSettings) :
    ((s.takeUse x r h).taken.cells x r).used = h.inUse ∧
      (h.inUse = true → ((s.takeUse x r h).taken.cells x r).key = h.key) := by
  unfold State.takeUse
  split
  · dsimp only
    rw [held_cellUpd, if_pos ⟨rfl, rfl⟩]
    refine ⟨?_, fun _ => rfl⟩
    cases use : h.inUse <;> rfl
  · next same =>
    simp only [changesUse, Bool.or_eq_true, Bool.and_eq_true, bne_iff_ne, not_or, not_and, ne_eq, not_not] at same
    exact ⟨same.1, fun inUse => same.2 ⟨same.1.trans inUse, inUse⟩⟩

/-- A record's stamps and offset: of what it holds of its host half the offset changes alone. -/
theorem taken_takeStamps (s : State) (x : Sub) (r : Fin 18) (h : CellSettings) : (s.takeStamps x r h).taken =
    { s.taken with cells := fun y q =>
      if y = x ∧ q = r then { s.taken.cells x r with offset := h.offset } else s.taken.cells y q } := by
  have weak : (s.cellSet x r fun c => c.weakClear h.weak).taken = s.taken := by
    refine taken_cellSet s x r ?_
    unfold CellRec.weakClear
    split <;> rfl
  have post (c : CellRec) : ({ c.probePost h.probe with offset := h.offset } : CellRec).held =
      { c.held with offset := h.offset } := by
    unfold CellRec.probePost
    split <;> rfl
  generalize cleared : (s.cellSet x r fun c => c.weakClear h.weak) = t at weak
  have posted : (t.modCell x r fun c => { c.probePost h.probe with offset := h.offset }).taken =
      { t.taken with cells := fun y q =>
        if y = x ∧ q = r then { t.taken.cells x r with offset := h.offset } else t.taken.cells y q } :=
    congrArg (fun v => { t.taken with cells := v }) (funext fun y => funext fun q =>
      (held_modCell t x r _ y q).trans (by rw [post]; rfl))
  unfold State.takeStamps
  dsimp only
  rw [cleared, ← weak, ← posted]
  exact taken_ite (taken_completeProbe _ _ _ _) rfl

theorem mem_takeHostRecord (s : State) (x : Sub) (r : Fin 18) : (s.takeHostRecord x r).exm.mem = s.exm.mem :=
  State.mem_of_outer (outer_takeHostRecord s x r)

theorem cellsOnly_takeHostRecord (s : State) (x : Sub) (r : Fin 18) : CellsOnly s (s.takeHostRecord x r) :=
  (cellsOnly_takeUse s x r (s.readCell x r)).trans ⟨_, taken_takeStamps _ x r (s.readCell x r)⟩

/-- A host record taken holds what its host half says, and the others what they held. -/
theorem cellFollows_takeHostRecord_same (s : State) (x : Sub) (r : Fin 18) : (s.takeHostRecord x r).cellFollows x r := by
  intro _
  obtain ⟨used, key⟩ := held_takeUse_same s x r (s.readCell x r)
  rw [readCell_of_mem (mem_takeHostRecord s x r)]
  unfold State.takeHostRecord
  dsimp only
  rw [taken_takeStamps]
  dsimp only
  rw [if_pos ⟨rfl, rfl⟩]
  exact ⟨used, rfl, key⟩

theorem cellFollows_takeHostRecord {s : State} (x : Sub) (r : Fin 18) {y : Sub} {q : Fin 18} (h : s.cellFollows y q) :
    (s.takeHostRecord x r).cellFollows y q := by
  by_cases same : y = x ∧ q = r
  · obtain ⟨rfl, rfl⟩ := same
    exact cellFollows_takeHostRecord_same s y q
  · intro host
    rw [readCell_of_mem (mem_takeHostRecord s x r)]
    unfold State.takeHostRecord
    dsimp only
    rw [taken_takeStamps]
    dsimp only
    rw [if_neg same, held_takeUse_other s _ host same]
    exact h host

theorem cellsOnly_foldGuest (s : State) (x : Sub) (g : Fin 18) : CellsOnly s (s.foldGuest x g) := by
  unfold State.foldGuest
  dsimp only
  split
  · split
    · exact (cellsOnly_cellUpd s x _ _).trans ((cellsOnly_cellUpd _ x g _).trans (.of_taken (taken_follow _ _ _ _)))
    · exact .of_taken rfl
  · exact .of_taken rfl

/-- A guest is folded into a record in use that holds its key: the record holds what it held of its host half (R83). -/
theorem cellFollows_foldGuest {s : State} (x : Sub) {g : Fin 18} (guest : 16 ≤ g.val) {y : Sub} {q : Fin 18}
    (h : s.cellFollows y q) : (s.foldGuest x g).cellFollows y q := by
  intro host
  have own : ¬(y = x ∧ q = g) := fun same => by rw [same.2] at host; omega
  rw [readCell_of_mem (State.mem_of_outer (outer_foldGuest s x g))]
  unfold State.foldGuest
  dsimp only
  split
  · next used =>
    split
    · next r found =>
      have holds := List.find?_some found
      rw [Bool.and_eq_true, beq_iff_eq] at holds
      rw [taken_follow, held_cellUpd, if_neg own, held_cellUpd]
      split
      · next same =>
        obtain ⟨rfl, rfl⟩ := same
        obtain ⟨use, offset, key⟩ := h host
        exact ⟨used.trans (holds.1.symm.trans use), offset, fun inUse => holds.2.symm.trans (key inUse)⟩
      · exact h host
    · exact h host
  · exact h host

theorem cellsOnly_takeTables (s : State) : CellsOnly s s.takeTables :=
  CellsOnly.trans
    (.foldl (fun t x => .foldl (fun t r => cellsOnly_takeHostRecord t x r) hostRecs t) allSubs s)
    (.foldl (fun t x => .foldl (fun t g => cellsOnly_foldGuest t x g) guestRecs t) allSubs _)

theorem mem_allSubs (x : Sub) : x ∈ allSubs := by cases x <;> decide

/-- A take of both tables leaves every host record with what its host half says (R80). -/
theorem cellFollows_takeTables (s : State) (x : Sub) (r : Fin 18) : s.takeTables.cellFollows x r := by
  have taken : ∀ y ∈ allSubs, ∀ q ∈ hostRecs,
      (allSubs.foldl (fun t x => hostRecs.foldl (fun t r => t.takeHostRecord x r) t) s).cellFollows y q := by
    refine settles_foldl (S := fun y t => ∀ q ∈ hostRecs, t.cellFollows y q) allSubs (fun y _ t => ?_)
      (fun z _ y t ht q hq => ?_) s
    · exact settles_foldl (S := State.cellFollows y) hostRecs
        (fun q _ t => cellFollows_takeHostRecord_same t y q) (fun p _ q t ht => cellFollows_takeHostRecord y p ht) t
    · exact keeps_foldl (P := State.cellFollows y q) hostRecs
        (fun p _ t ht => cellFollows_takeHostRecord z p ht) (ht q hq)
  have guest : ∀ g ∈ guestRecs, 16 ≤ g.val := by decide
  intro host
  have folded : s.takeTables.cellFollows x r := by
    unfold State.takeTables
    exact keeps_foldl (P := State.cellFollows x r) allSubs
      (fun y _ _ ht => keeps_foldl (P := State.cellFollows x r) guestRecs
        (fun g hg _ ht => cellFollows_foldGuest y (guest g hg) ht) ht)
      (taken x (mem_allSubs x) r ((mem_hostRecs r).2 host))
  exact folded host

@[simp] theorem taken_cellsNotice (s : State) (x : Sub) (had : Option (Key × Fin 18)) (l : List (Fin 18)) :
    (s.cellsNotice x had l).taken = s.taken := by
  have candidate : (s.candidateNotice x had l).taken = s.taken := by
    unfold State.candidateNotice
    split
    · exact taken_dropReselection s x
    · exact taken_ite (taken_dropReselection s x) rfl
    · rfl
  have search (t : State) : (t.searchNotice x l).taken = t.taken := by
    unfold State.searchNotice
    refine taken_ite (by simp) ?_
    split
    · rfl
    · dsimp only
      split
      · exact taken_ite (by simp) (by simp)
      · simp
  exact taken_ite rfl ((search _).trans candidate)

@[simp] theorem outer_cellsNotice (s : State) (x : Sub) (had : Option (Key × Fin 18)) (l : List (Fin 18)) :
    (s.cellsNotice x had l).outer = s.outer := by
  have candidate : (s.candidateNotice x had l).outer = s.outer := by
    unfold State.candidateNotice
    split
    · exact outer_dropReselection s x
    · exact keeps_ite (P := fun t => t.outer = s.outer) (outer_dropReselection s x) rfl
    · rfl
  have search (t : State) : (t.searchNotice x l).outer = t.outer := by
    unfold State.searchNotice
    refine keeps_ite (P := fun u => u.outer = t.outer) (by simp) ?_
    split
    · rfl
    · dsimp only
      split
      · exact keeps_ite (P := fun u => u.outer = t.outer) (by simp) (by simp)
      · simp
  exact keeps_ite (P := fun t => t.outer = s.outer) rfl ((search _).trans candidate)

theorem taken_takeCells (s : State) : s.takeCells.taken = (s.scanClear .cells).takeTables.taken := by
  simp [State.takeCells]
theorem outer_takeCells (s : State) : s.takeCells.outer = (s.scanClear .cells).outer := by
  simp [State.takeCells]

end Sys2Proof.Machine
end

section
/-! SUPPORT. The takes of CALLS, OUTBOX, INBOX and FAULT (R133 to R137, R153, R154, R159, R168, R184): every request posted is
answered under its stamp, whatever the answer. -/

namespace Sys2Proof.Machine

/-! ### CALLS (R133 to R137) -/

/-- What is held of the host's halves once a call context's request is answered under its stamp. -/
def Taken.answerCall (v : Taken) (k : Fin 4) (t : Stamp) : Taken :=
  { v with calls := fun j => if j = k then (t, (v.calls k).2) else v.calls j }

/-- The stamp already taken is no new answer. -/
theorem answerCall_self (s : State) (k : Fin 4) : s.taken.answerCall k (s.call k).part.taken = s.taken := by
  refine congrArg (fun v => { s.taken with calls := v }) (funext fun j => ?_)
  split
  · next here => rw [here]; rfl
  · rfl

theorem taken_callUpd_answered (s : State) (k : Fin 4) {t : Stamp} {f : CallRec → CallRec} (answers : ∀ r, (f r).taken = t) :
    (s.callUpd k f).taken = s.taken.answerCall k t := by
  refine (taken_raise _ _).trans ((taken_modCall_eq s k _).trans ?_)
  dsimp only
  rw [answers]
  rfl

theorem taken_refuseCall (s : State) (k : Fin 4) (t : Stamp) (v : CallResult) :
    (s.refuseCall k t v).taken = s.taken.answerCall k t := taken_callUpd_answered s k (by exact fun _ => rfl)

theorem taken_acceptDial (s : State) (k : Fin 4) (t : Stamp) (x : Sub) :
    (s.acceptDial k t x).taken = s.taken.answerCall k t := by
  unfold State.acceptDial
  dsimp only
  rw [taken_callUpd_answered _ k (t := t) (by exact fun _ => rfl), taken_modCall _ k (by exact fun _ => ⟨rfl, rfl⟩),
    taken_takeRef, taken_connect]

theorem taken_takeDial (s : State) (k : Fin 4) (t : Stamp) : (s.takeDial k t).taken = s.taken.answerCall k t := by
  have refused (v : CallResult) := taken_refuseCall s k t v
  unfold State.takeDial
  split
  · exact refused _
  · exact keeps_ite (P := fun u => u.taken = s.taken.answerCall k t) (refused _)
      (keeps_ite (P := fun u => u.taken = s.taken.answerCall k t) (refused _)
        (keeps_ite (P := fun u => u.taken = s.taken.answerCall k t) (refused _) (taken_acceptDial s k t _)))

theorem taken_takeAnswer (s : State) (k : Fin 4) (t : Stamp) : (s.takeAnswer k t).taken = s.taken.answerCall k t := by
  have refused (v : CallResult) := taken_refuseCall s k t v
  unfold State.takeAnswer
  dsimp only
  split_ifs
  · exact refused _
  · exact refused _
  · exact refused _
  · rw [taken_callUpd_answered _ k (t := t) (by exact fun _ => rfl), taken_modCall _ k (by exact fun _ => ⟨rfl, rfl⟩),
      taken_connect]

theorem taken_beginRelease (s : State) (k : Fin 4) (t : Stamp) (next : NextSend) :
    (s.beginRelease k t next).taken = s.taken.answerCall k t := by
  unfold State.beginRelease
  rw [taken_callUpd_answered _ k (t := t) (by exact fun _ => rfl), taken_modCall _ k (by exact fun _ => ⟨rfl, rfl⟩)]

/-- A call declined is answered beside its ending. -/
theorem taken_modCall_answered (s : State) (k : Fin 4) (t : Stamp) (v : CallResult) :
    (s.modCall k fun c => { c with part := c.part.answered t v }).taken = s.taken.answerCall k t := taken_modCall_eq s k _

theorem taken_takeHostRelease (s : State) (k : Fin 4) (t : Stamp) :
    (s.takeHostRelease k t).taken = s.taken.answerCall k t := by
  unfold State.takeHostRelease
  dsimp only
  split
  · rw [taken_modCall_answered]
    congr 1
    exact taken_ite (by simp) (by simp)
  · exact taken_beginRelease (s.withdraw _ _) k t _
  · exact taken_beginRelease (s.withdraw _ _) k t _
  · exact taken_beginRelease (s.modMachine _ _) k t _
  · exact taken_beginRelease s k t _
  · exact taken_refuseCall s k t _
  · exact taken_refuseCall s k t _
  · exact taken_refuseCall s k t _

theorem taken_takeFree (s : State) (k : Fin 4) (t : Stamp) : (s.takeFree k t).taken = s.taken.answerCall k t := by
  unfold State.takeFree
  split
  · exact taken_callUpd_answered s k (by exact fun _ => rfl)
  · exact taken_refuseCall s k t _

/-- A call context at a take of CALLS holds the stamp and the flag of its host half. -/
theorem taken_takeCall (s : State) (k : Fin 4) : (s.takeCall k).taken =
    { s.taken with calls := fun j => if j = k then (s.callStamp k, s.callNotify k) else s.taken.calls j } := by
  let t := s.modCall k fun c => { c with notify := s.callNotify k }
  have answered : t.taken.answerCall k (t.callStamp k) =
      { s.taken with calls := fun j => if j = k then (s.callStamp k, s.callNotify k) else s.taken.calls j } := by
    rw [taken_modCall_eq]
    refine congrArg (fun v => { s.taken with calls := v }) (funext fun j => ?_)
    dsimp only
    split
    · rw [if_pos rfl]
      rfl
    · rfl
  rw [← answered]
  change (if t.callStamp k = (t.call k).part.taken then t else _).taken = _
  split
  · next same =>
    rw [same]
    exact (answerCall_self t k).symm
  · split
    · exact taken_takeDial t k _
    · exact taken_takeAnswer t k _
    · exact taken_takeHostRelease t k _
    · exact taken_takeFree t k _
    · exact taken_refuseCall t k _ _

/-! ### CALLS: what a request leaves of the host port -/

theorem outer_ite {c : Prop} [Decidable c] {s t u : State} (hs : s.outer = u.outer) (ht : t.outer = u.outer) :
    (if c then s else t).outer = u.outer := keeps_ite (P := fun t => t.outer = u.outer) hs ht

@[simp] theorem outer_refuseCall (s : State) (k : Fin 4) (t : Stamp) (v : CallResult) :
    (s.refuseCall k t v).outer = s.outer := outer_callUpd s k _
@[simp] theorem outer_acceptDial (s : State) (k : Fin 4) (t : Stamp) (x : Sub) :
    (s.acceptDial k t x).outer = s.outer := by simp [State.acceptDial]
@[simp] theorem outer_beginRelease (s : State) (k : Fin 4) (t : Stamp) (next : NextSend) :
    (s.beginRelease k t next).outer = s.outer := by simp [State.beginRelease]

@[simp] theorem outer_takeDial (s : State) (k : Fin 4) (t : Stamp) : (s.takeDial k t).outer = s.outer := by
  unfold State.takeDial
  split
  · exact outer_refuseCall s k t _
  · exact outer_ite (by simp) (outer_ite (by simp) (outer_ite (by simp) (by simp)))

@[simp] theorem outer_takeAnswer (s : State) (k : Fin 4) (t : Stamp) : (s.takeAnswer k t).outer = s.outer :=
  outer_ite (by simp) (outer_ite (by simp) (outer_ite (by simp) (by simp)))

@[simp] theorem outer_takeHostRelease (s : State) (k : Fin 4) (t : Stamp) : (s.takeHostRelease k t).outer = s.outer := by
  unfold State.takeHostRelease
  dsimp only
  split
  · exact outer_ite (by simp) (by simp)
  all_goals simp

@[simp] theorem outer_takeFree (s : State) (k : Fin 4) (t : Stamp) : (s.takeFree k t).outer = s.outer :=
  outer_ite (by simp) (by simp)

theorem outer_takeCall (s : State) (k : Fin 4) : (s.takeCall k).outer = s.outer := by
  unfold State.takeCall
  refine outer_ite (by simp) ?_
  split <;> simp

theorem outer_takeCalls (s : State) : s.takeCalls.outer = (s.scanClear .calls).outer :=
  outer_foldl outer_takeCall allCalls _

/-- A call context holds the stamp and the flag of its host half. -/
def State.callFollows (k : Fin 4) (t : State) : Prop := t.taken.calls k = (t.callStamp k, t.callNotify k)

theorem callFollows_takeCall {s : State} (k j : Fin 4) (h : j = k ∨ s.callFollows j) : (s.takeCall k).callFollows j := by
  have mem : (s.takeCall k).exm.mem = s.exm.mem := State.mem_of_outer (outer_takeCall s k)
  unfold State.callFollows
  rw [taken_takeCall, callStamp_of_mem mem, callNotify_of_mem mem]
  dsimp only
  split
  · next here => rw [here]
  · next other => exact h.resolve_left other

theorem mem_allCalls (k : Fin 4) : k ∈ allCalls := by revert k; decide

/-- A take of CALLS answers every request posted (R133). -/
theorem callFollows_takeCalls (s : State) (k : Fin 4) : s.takeCalls.callFollows k :=
  settles_foldl (S := State.callFollows) allCalls (fun j _ _ => callFollows_takeCall j j (.inl rfl))
    (fun j _ _ _ h => callFollows_takeCall j _ (.inr h)) (s.scanClear .calls) k (mem_allCalls k)

/-- A take of CALLS changes what is held of the call contexts alone. -/
theorem taken_takeCalls (s : State) : ∃ v, s.takeCalls.taken = { s.taken with calls := v } :=
  keeps_foldl (P := fun t => ∃ v, t.taken = { s.taken with calls := v }) allCalls
    (fun k _ t ⟨v, ht⟩ => ⟨_, by rw [taken_takeCall, ht]⟩) ⟨s.taken.calls, rfl⟩

/-! ### OUTBOX (R153, R154, R159) -/

/-- What is held of the host's halves once an outbox slot's request is answered under its stamp. -/
def Taken.answerOut (v : Taken) (i : Fin 8) (t : Stamp) : Taken :=
  { v with outbox := fun j => if j = i then (t, (v.outbox i).2) else v.outbox j }

theorem answerOut_self (s : State) (i : Fin 8) : s.taken.answerOut i (s.slot i).taken = s.taken := by
  refine congrArg (fun v => { s.taken with outbox := v }) (funext fun j => ?_)
  split
  · next here => rw [here]; rfl
  · rfl

theorem taken_slotUpd_answered (s : State) (i : Fin 8) (b : Bool) {t : Stamp} {f : OutSlot → OutSlot}
    (answers : ∀ o, (f o).taken = t ∧ (f o).notify = o.notify) : (s.slotUpd i b f).taken = s.taken.answerOut i t := by
  refine (taken_raiseIf _ _ _).trans ((taken_modSlot_eq s i _).trans ?_)
  dsimp only
  rw [(answers _).1, (answers _).2]
  rfl

theorem taken_refuseOut (s : State) (i : Fin 8) (t : Stamp) (v : OutResult) :
    (s.refuseOut i t v).taken = s.taken.answerOut i t := taken_slotUpd_answered s i true (by exact fun _ => ⟨rfl, rfl⟩)

theorem taken_acceptSend (s : State) (i : Fin 8) (t : Stamp) (x : Sub) :
    (s.acceptSend i t x).taken = s.taken.answerOut i t :=
  (taken_modSide _ _ _).trans (taken_slotUpd_answered s i true (by exact fun _ => ⟨rfl, rfl⟩))

theorem taken_takeSend (s : State) (i : Fin 8) (t : Stamp) : (s.takeSend i t).taken = s.taken.answerOut i t := by
  have refused (v : OutResult) := taken_refuseOut s i t v
  unfold State.takeSend
  refine keeps_ite (P := fun u => u.taken = s.taken.answerOut i t) (refused _) ?_
  split
  · exact refused _
  · exact keeps_ite (P := fun u => u.taken = s.taken.answerOut i t) (refused _)
      (keeps_ite (P := fun u => u.taken = s.taken.answerOut i t) (refused _) (taken_acceptSend s i t _))

theorem taken_withdrawSlot (s : State) (i : Fin 8) (t : Stamp) (b : Bool) :
    (s.withdrawSlot i t b).taken = s.taken.answerOut i t :=
  (taken_leaveQueue _ _ _).trans (taken_slotUpd_answered s i true (by exact fun _ => ⟨rfl, rfl⟩))

/-- The withdraw of a slot whose segment may be in flight (R159). -/
theorem taken_takeWithdraw (s : State) (i : Fin 8) (t : Stamp) : (s.takeWithdraw i t).taken = s.taken.answerOut i t := by
  have inFlight (f : Flight) : (if s.flightGranted f then
      (s.withdraw (s.slot i).owner fun p => p.handle == f.handle && p.kind == Kind.txOpen && !p.started).withdrawSlot i t true
      else s.slotUpd i true fun o => { o.answered t .ok with withdraw := true }).taken = s.taken.answerOut i t :=
    keeps_ite (P := fun u => u.taken = s.taken.answerOut i t) (taken_withdrawSlot (s.withdraw _ _) i t true)
      (taken_slotUpd_answered s i true (by exact fun _ => ⟨rfl, rfl⟩))
  unfold State.takeWithdraw
  dsimp only
  split
  · exact taken_withdrawSlot s i t false
  · split
    · exact taken_withdrawSlot s i t false
    · exact inFlight _
  · split
    · exact taken_withdrawSlot s i t false
    · exact inFlight _
  · exact taken_refuseOut s i t _

theorem taken_takeOutFree (s : State) (i : Fin 8) (t : Stamp) : (s.takeOutFree i t).taken = s.taken.answerOut i t := by
  have freed := taken_slotUpd_answered s i true (t := t) (f := fun o => { o.answered t .ok with state := .empty })
    fun _ => ⟨rfl, rfl⟩
  unfold State.takeOutFree
  split
  · exact freed
  · exact freed
  · exact freed
  · exact taken_refuseOut s i t _

/-- An outbox slot at a take of OUTBOX holds the stamp and the flag of its host half. -/
theorem taken_takeOut (s : State) (i : Fin 8) : (s.takeOut i).taken =
    { s.taken with outbox := fun j => if j = i then (s.outStamp i, s.outNotify i) else s.taken.outbox j } := by
  let t := s.modSlot i fun o => { o with notify := s.outNotify i }
  have answered : t.taken.answerOut i (t.outStamp i) =
      { s.taken with outbox := fun j => if j = i then (s.outStamp i, s.outNotify i) else s.taken.outbox j } := by
    rw [taken_modSlot_eq]
    refine congrArg (fun v => { s.taken with outbox := v }) (funext fun j => ?_)
    dsimp only
    split
    · rw [if_pos rfl]
      rfl
    · rfl
  rw [← answered]
  change (if t.outStamp i = (t.slot i).taken then t else _).taken = _
  split
  · next same =>
    rw [same]
    exact (answerOut_self t i).symm
  · split
    · exact taken_takeSend t i _
    · exact taken_takeWithdraw t i _
    · exact taken_takeOutFree t i _
    · exact taken_refuseOut t i _ _

/-! ### OUTBOX: what a request leaves of the host port -/

@[simp] theorem outer_refuseOut (s : State) (i : Fin 8) (t : Stamp) (v : OutResult) :
    (s.refuseOut i t v).outer = s.outer := outer_slotUpd s i true _
@[simp] theorem outer_acceptSend (s : State) (i : Fin 8) (t : Stamp) (x : Sub) :
    (s.acceptSend i t x).outer = s.outer := by simp [State.acceptSend]
@[simp] theorem outer_withdrawSlot (s : State) (i : Fin 8) (t : Stamp) (b : Bool) :
    (s.withdrawSlot i t b).outer = s.outer := by simp [State.withdrawSlot]

@[simp] theorem outer_takeSend (s : State) (i : Fin 8) (t : Stamp) : (s.takeSend i t).outer = s.outer := by
  unfold State.takeSend
  refine outer_ite (by simp) ?_
  split
  · exact outer_refuseOut s i t _
  · exact outer_ite (by simp) (outer_ite (by simp) (by simp))

@[simp] theorem outer_takeWithdraw (s : State) (i : Fin 8) (t : Stamp) : (s.takeWithdraw i t).outer = s.outer := by
  unfold State.takeWithdraw
  dsimp only
  split
  · simp
  · split
    · simp
    · exact outer_ite (by simp) (by simp)
  · split
    · simp
    · exact outer_ite (by simp) (by simp)
  · simp

@[simp] theorem outer_takeOutFree (s : State) (i : Fin 8) (t : Stamp) : (s.takeOutFree i t).outer = s.outer := by
  unfold State.takeOutFree
  split <;> simp

theorem outer_takeOut (s : State) (i : Fin 8) : (s.takeOut i).outer = s.outer := by
  unfold State.takeOut
  refine outer_ite (by simp) ?_
  split <;> simp

theorem outer_takeOutbox (s : State) : s.takeOutbox.outer = (s.scanClear .outbox).outer :=
  outer_foldl outer_takeOut allSlots _

/-- An outbox slot holds the stamp and the flag of its host half. -/
def State.slotFollows (i : Fin 8) (t : State) : Prop := t.taken.outbox i = (t.outStamp i, t.outNotify i)

theorem slotFollows_takeOut {s : State} (i j : Fin 8) (h : j = i ∨ s.slotFollows j) : (s.takeOut i).slotFollows j := by
  have mem : (s.takeOut i).exm.mem = s.exm.mem := State.mem_of_outer (outer_takeOut s i)
  unfold State.slotFollows
  rw [taken_takeOut, outStamp_of_mem mem, outNotify_of_mem mem]
  dsimp only
  split
  · next here => rw [here]
  · next other => exact h.resolve_left other

theorem mem_allSlots (i : Fin 8) : i ∈ allSlots := by revert i; decide

/-- A take of OUTBOX answers every request posted (R153). -/
theorem slotFollows_takeOutbox (s : State) (i : Fin 8) : s.takeOutbox.slotFollows i :=
  settles_foldl (S := State.slotFollows) allSlots (fun j _ _ => slotFollows_takeOut j j (.inl rfl))
    (fun j _ _ _ h => slotFollows_takeOut j _ (.inr h)) (s.scanClear .outbox) i (mem_allSlots i)

/-- A take of OUTBOX changes what is held of the outbox slots alone. -/
theorem taken_takeOutbox (s : State) : ∃ v, s.takeOutbox.taken = { s.taken with outbox := v } :=
  keeps_foldl (P := fun t => ∃ v, t.taken = { s.taken with outbox := v }) allSlots
    (fun i _ t ⟨v, ht⟩ => ⟨_, by rw [taken_takeOut, ht]⟩) ⟨s.taken.outbox, rfl⟩

/-! ### INBOX and FAULT (R168, R184) -/

/-- An inbox slot's release stamp read. -/
def State.readRelease (s : State) (i : Fin 8) : State := s.modInbox i fun b => { b with release := s.inRelease i }

theorem takeInbox_eq (s : State) : s.takeInbox = (allSlots.foldl State.readRelease (s.scanClear .inbox)).deliverWaiting := rfl

theorem taken_readRelease (s : State) (i : Fin 8) : (s.readRelease i).taken =
    { s.taken with inbox := fun j => if j = i then s.inRelease i else s.taken.inbox j } := by
  refine congrArg (fun v => { s.taken with inbox := v }) (funext fun j => ?_)
  by_cases here : j = i
  · subst here
    rw [if_pos rfl]
    simp [State.readRelease, State.modInbox]
  · have other : i.val ≠ j.val := fun e => here (Fin.ext e.symm)
    rw [if_neg here]
    simp [State.readRelease, State.modInbox, Vector.getElem_set_ne _ _ other, State.taken]

/-- An inbox slot holds the release stamp of its host half. -/
def State.releaseFollows (i : Fin 8) (t : State) : Prop := t.taken.inbox i = t.inRelease i

theorem releaseFollows_readRelease {s : State} (i j : Fin 8) (h : j = i ∨ s.releaseFollows j) :
    (s.readRelease i).releaseFollows j := by
  unfold State.releaseFollows
  rw [taken_readRelease]
  change (if j = i then s.inRelease i else s.taken.inbox j) = s.inRelease j
  split
  · next here => rw [here]
  · next other => exact h.resolve_left other

theorem outer_takeInbox (s : State) : s.takeInbox.outer = (s.scanClear .inbox).outer := by
  rw [takeInbox_eq, outer_deliverWaiting]
  exact outer_foldl (fun t i => outer_modInbox t i _) allSlots _

/-- A take of INBOX reads every release stamp (R168). -/
theorem releaseFollows_takeInbox (s : State) (i : Fin 8) : s.takeInbox.releaseFollows i := by
  have read := settles_foldl (S := State.releaseFollows) allSlots (fun j _ _ => releaseFollows_readRelease j j (.inl rfl))
    (fun j _ _ _ h => releaseFollows_readRelease j _ (.inr h)) (s.scanClear .inbox) i (mem_allSlots i)
  rw [takeInbox_eq]
  generalize allSlots.foldl State.readRelease (s.scanClear .inbox) = t at read
  have mem : t.deliverWaiting.exm.mem = t.exm.mem := State.mem_of_outer (outer_deliverWaiting t)
  unfold State.releaseFollows
  rw [taken_deliverWaiting, inRelease_of_mem mem]
  exact read

/-- A take of INBOX changes what is held of the inbox slots alone. -/
theorem taken_takeInbox (s : State) : ∃ v, s.takeInbox.taken = { s.taken with inbox := v } := by
  rw [takeInbox_eq, taken_deliverWaiting]
  exact keeps_foldl (P := fun t => ∃ v, t.taken = { s.taken with inbox := v }) allSlots
    (fun i _ t ⟨v, ht⟩ => ⟨_, by rw [taken_readRelease, ht]⟩) ⟨s.taken.inbox, rfl⟩

/-- A take of FAULT writes of the host port the fault record alone, keeps its stamp, and leaves none held that is acknowledged
(R184). -/
theorem takeFault_fault (s : State) : s.takeFault.taken = s.taken ∧
    s.takeFault.outer = { (s.scanClear .fault).outer with fault := s.takeFault.exm.fault } ∧
    s.takeFault.exm.fault.stamp = s.exm.fault.stamp ∧
    (s.takeFault.exm.fault.held = true → s.faultAck ≠ s.exm.fault.stamp) := by
  unfold State.takeFault
  dsimp only
  split
  · exact ⟨rfl, rfl, rfl, fun held => by contradiction⟩
  · next unacked =>
    refine ⟨rfl, rfl, rfl, fun held acked => unacked ?_⟩
    rw [Bool.and_eq_true, beq_iff_eq]
    exact ⟨held, acked⟩

end Sys2Proof.Machine
end

section
/-! SUPPORT. The scans that are held, taken at the entry to RUNNING (R185, R186), and the searches that the entry begins before them
(R60, R64, R192). -/

namespace Sys2Proof.Machine

/-! ### One area's take (R185) -/

/-- An area's take has left the blocks holding what the host's halves of the area say; a fault record still held is one that is not
acknowledged. -/
def State.areaTaken (a : Area) (t : State) : Prop :=
  match a with
  | .subs => t.taken.settings = t.readSettings
  | .cells => ∀ x r, t.cellFollows x r
  | .calls => ∀ k, t.callFollows k
  | .outbox => ∀ i, t.slotFollows i
  | .inbox => ∀ i, t.releaseFollows i
  | .fault => t.exm.fault.held = true → t.faultAck ≠ t.exm.fault.stamp
  | .setup | .power | .voice => True

/-- What the take of area `a` leaves alone: of the host port all but the area's bit and, for FAULT, the fault record but its stamp;
of what the blocks hold of the host's halves all but the area's own. -/
structure TakesArea (a : Area) (s t : State) : Prop where
  outer    : t.outer = { s.outer with scan := s.exm.scan &&& ~~~ (areaMask a), fault := t.exm.fault }
  stamp    : t.exm.fault.stamp = s.exm.fault.stamp
  fault    : a ≠ .fault → t.exm.fault = s.exm.fault
  settings : a ≠ .subs → t.taken.settings = s.taken.settings
  cells    : a ≠ .cells → t.taken.cells = s.taken.cells
  calls    : a ≠ .calls → t.taken.calls = s.taken.calls
  outbox   : a ≠ .outbox → t.taken.outbox = s.taken.outbox
  inbox    : a ≠ .inbox → t.taken.inbox = s.taken.inbox

/-- A take that writes of the host port its bit alone. -/
theorem TakesArea.of_outer {a : Area} {s t : State} (outer : t.outer = (s.scanClear a).outer)
    (settings : a ≠ .subs → t.taken.settings = s.taken.settings) (cells : a ≠ .cells → t.taken.cells = s.taken.cells)
    (calls : a ≠ .calls → t.taken.calls = s.taken.calls) (outbox : a ≠ .outbox → t.taken.outbox = s.taken.outbox)
    (inbox : a ≠ .inbox → t.taken.inbox = s.taken.inbox) : TakesArea a s t where
  outer := by
    have fault : t.exm.fault = s.exm.fault := congrArg Outer.fault outer
    rw [outer, fault]
    rfl
  stamp := congrArg (fun o => o.fault.stamp) outer
  fault _ := congrArg Outer.fault outer
  settings := settings
  cells := cells
  calls := calls
  outbox := outbox
  inbox := inbox

/-- A scan bit that is not set is not changed by its clearing. -/
theorem scan_of_unset {s : State} {a : Area} (unset : s.scanSet a = false) : s.exm.scan &&& ~~~ (areaMask a) = s.exm.scan := by
  have clear : s.exm.scan &&& areaMask a = 0 := by simpa [State.scanSet] using unset
  have bits : ∀ m n : BitVec 9, n &&& m = 0 → n &&& ~~~ m = n := by
    intro m n zero
    ext i hi
    have bit := congrArg (fun v => v.getLsbD i) zero
    simp at bit ⊢
    tauto
  exact bits _ _ clear

theorem takeArea_of_unset {s : State} {a : Area} (unset : s.scanSet a = false) : s.takeArea a = s :=
  if_neg (by simp [unset])

/-- One area's take, by its owner where the bit is set. -/
theorem takesArea_takeArea (s : State) (a : Area) : TakesArea a s (s.takeArea a) := by
  cases set : s.scanSet a with
  | false =>
    rw [takeArea_of_unset set]
    refine ⟨?_, rfl, fun _ => rfl, fun _ => rfl, fun _ => rfl, fun _ => rfl, fun _ => rfl, fun _ => rfl⟩
    rw [scan_of_unset set]
    rfl
  | true =>
    have takes : s.takeArea a = _ := if_pos set
    rw [takes]
    cases a with
    | subs =>
      change TakesArea .subs s s.takeSubs
      have taken := taken_takeSubs s
      exact .of_outer (outer_takeSubs s) (absurd rfl) (fun _ => (congrArg Taken.cells taken :))
        (fun _ => (congrArg Taken.calls taken :)) (fun _ => (congrArg Taken.outbox taken :)) fun _ => (congrArg Taken.inbox taken :)
    | cells =>
      change TakesArea .cells s s.takeCells
      obtain ⟨v, taken⟩ := cellsOnly_takeTables (s.scanClear .cells)
      rw [← taken_takeCells] at taken
      exact .of_outer (outer_takeCells s) (fun _ => (congrArg Taken.settings taken :)) (absurd rfl)
        (fun _ => (congrArg Taken.calls taken :)) (fun _ => (congrArg Taken.outbox taken :)) fun _ => (congrArg Taken.inbox taken :)
    | calls =>
      change TakesArea .calls s s.takeCalls
      obtain ⟨v, taken⟩ := taken_takeCalls s
      exact .of_outer (outer_takeCalls s) (fun _ => (congrArg Taken.settings taken :)) (fun _ => (congrArg Taken.cells taken :))
        (absurd rfl) (fun _ => (congrArg Taken.outbox taken :)) fun _ => (congrArg Taken.inbox taken :)
    | outbox =>
      change TakesArea .outbox s s.takeOutbox
      obtain ⟨v, taken⟩ := taken_takeOutbox s
      exact .of_outer (outer_takeOutbox s) (fun _ => (congrArg Taken.settings taken :)) (fun _ => (congrArg Taken.cells taken :))
        (fun _ => (congrArg Taken.calls taken :)) (absurd rfl) fun _ => (congrArg Taken.inbox taken :)
    | inbox =>
      change TakesArea .inbox s s.takeInbox
      obtain ⟨v, taken⟩ := taken_takeInbox s
      exact .of_outer (outer_takeInbox s) (fun _ => (congrArg Taken.settings taken :)) (fun _ => (congrArg Taken.cells taken :))
        (fun _ => (congrArg Taken.calls taken :)) (fun _ => (congrArg Taken.outbox taken :)) (absurd rfl)
    | fault =>
      change TakesArea .fault s s.takeFault
      obtain ⟨taken, outer, stamp, -⟩ := takeFault_fault s
      exact ⟨outer, stamp, absurd rfl, fun _ => (congrArg Taken.settings taken :), fun _ => (congrArg Taken.cells taken :),
        fun _ => (congrArg Taken.calls taken :), fun _ => (congrArg Taken.outbox taken :), fun _ => (congrArg Taken.inbox taken :)⟩
    | setup | power | voice => exact .of_outer rfl (fun _ => rfl) (fun _ => rfl) (fun _ => rfl) (fun _ => rfl) fun _ => rfl

/-- A posted area is taken. -/
theorem areaTaken_takeArea_same {s : State} {a : Area} (set : s.scanSet a = true) : (s.takeArea a).areaTaken a := by
  have takes : s.takeArea a = _ := if_pos set
  rw [takes]
  cases a with
  | subs =>
    have mem : s.takeSubs.exm.mem = s.exm.mem := congrArg Outer.mem (outer_takeSubs s)
    exact (congrArg Taken.settings (taken_takeSubs s)).trans (readSettings_of_mem mem).symm
  | cells =>
    intro x r host
    have mem : s.takeCells.exm.mem = (s.scanClear .cells).takeTables.exm.mem :=
      State.mem_of_outer ((outer_takeCells s).trans (outer_takeTables _).symm)
    change (s.takeCells.taken.cells x r).follows (s.takeCells.readCell x r)
    rw [taken_takeCells, readCell_of_mem mem]
    exact cellFollows_takeTables _ x r host
  | calls => exact callFollows_takeCalls s
  | outbox => exact slotFollows_takeOutbox s
  | inbox => exact releaseFollows_takeInbox s
  | fault =>
    obtain ⟨-, outer, stamp, acked⟩ := takeFault_fault s
    have mem : s.takeFault.exm.mem = s.exm.mem := congrArg Outer.mem outer
    intro held
    change s.takeFault.faultAck ≠ s.takeFault.exm.fault.stamp
    rw [faultAck_of_mem mem, stamp]
    exact acked held
  | setup | power | voice => trivial

/-- What was taken of an area stays so where what is held of it, the memory and the fault record stand. -/
theorem areaTaken_of_same {s t : State} {b : Area} (mem : t.exm.mem = s.exm.mem)
    (fault : b = .fault → t.exm.fault = s.exm.fault) (settings : b = .subs → t.taken.settings = s.taken.settings)
    (cells : b = .cells → t.taken.cells = s.taken.cells) (calls : b = .calls → t.taken.calls = s.taken.calls)
    (outbox : b = .outbox → t.taken.outbox = s.taken.outbox) (inbox : b = .inbox → t.taken.inbox = s.taken.inbox)
    (h : s.areaTaken b) : t.areaTaken b := by
  cases b with
  | subs =>
    change t.taken.settings = t.readSettings
    rw [settings rfl, readSettings_of_mem mem]
    exact h
  | cells =>
    intro x r host
    have follows := h x r host
    change (s.taken.cells x r).follows (s.readCell x r) at follows
    rw [← cells rfl, ← readCell_of_mem mem] at follows
    exact follows
  | calls =>
    intro k
    change t.taken.calls k = (t.callStamp k, t.callNotify k)
    rw [calls rfl, callStamp_of_mem mem, callNotify_of_mem mem]
    exact h k
  | outbox =>
    intro i
    change t.taken.outbox i = (t.outStamp i, t.outNotify i)
    rw [outbox rfl, outStamp_of_mem mem, outNotify_of_mem mem]
    exact h i
  | inbox =>
    intro i
    change t.taken.inbox i = t.inRelease i
    rw [inbox rfl, inRelease_of_mem mem]
    exact h i
  | fault =>
    change t.exm.fault.held = true → t.faultAck ≠ t.exm.fault.stamp
    rw [fault rfl, faultAck_of_mem mem]
    exact h
  | setup | power | voice => trivial

/-- Another area's take leaves what was taken of an area, and its bit. -/
theorem areaTaken_takeArea_other {s : State} {a b : Area} (other : b ≠ a) (h : s.areaTaken b) : (s.takeArea a).areaTaken b := by
  have takes := takesArea_takeArea s a
  exact areaTaken_of_same (congrArg Outer.mem takes.outer) (fun e => takes.fault (e ▸ other.symm))
    (fun e => takes.settings (e ▸ other.symm)) (fun e => takes.cells (e ▸ other.symm)) (fun e => takes.calls (e ▸ other.symm))
    (fun e => takes.outbox (e ▸ other.symm)) (fun e => takes.inbox (e ▸ other.symm)) h

theorem scanSet_takeArea_other {s : State} {a b : Area} (other : b ≠ a) : (s.takeArea a).scanSet b = s.scanSet b := by
  have scan : (s.takeArea a).exm.scan = s.exm.scan &&& ~~~ (areaMask a) := congrArg Outer.scan (takesArea_takeArea s a).outer
  have masks : ∀ a b : Area, b ≠ a → ~~~ (areaMask a) &&& areaMask b = areaMask b := by
    intro a b
    cases a <;> cases b <;> decide
  unfold State.scanSet
  rw [scan, BitVec.and_assoc, masks a b other]

/-! ### The scans that are held (R186) -/

/-- Every bit of the mask belongs to an area. -/
theorem scan_takeHeld (s : State) : s.takeHeld.exm.scan = 0 := by
  have masks : ∀ m : BitVec 9, allAreas.foldl (fun m a => m &&& ~~~ (areaMask a)) m = 0 := by decide
  have turns : ∀ (l : List Area) (t : State),
      (l.foldl State.takeArea t).exm.scan = l.foldl (fun m a => m &&& ~~~ (areaMask a)) t.exm.scan := by
    intro l
    induction l with
    | nil => exact fun t => rfl
    | cons a l ih => exact fun t => (ih _).trans (congrArg (l.foldl fun m a => m &&& ~~~ (areaMask a))
        (congrArg Outer.scan (takesArea_takeArea t a).outer : (t.takeArea a).exm.scan = t.exm.scan &&& ~~~ (areaMask a)))
  exact (turns allAreas s).trans (masks s.exm.scan)

/-- Every scan held is taken. -/
theorem areaTaken_takeHeld {s : State} {b : Area} (held : s.scanSet b = true) : s.takeHeld.areaTaken b := by
  have taken : s.takeHeld.scanSet b = true ∨ s.takeHeld.areaTaken b :=
    keeps_foldl (P := fun t => t.scanSet b = true ∨ t.areaTaken b) allAreas (fun a _ t ht => by
      by_cases same : b = a
      · subst same
        cases set : t.scanSet b with
        | true => exact .inr (areaTaken_takeArea_same set)
        | false =>
          rw [set] at ht
          rw [takeArea_of_unset set]
          exact .inr (ht.resolve_left (by simp))
      · rw [scanSet_takeArea_other same]
        exact ht.imp_right (areaTaken_takeArea_other same)) (.inl held)
  refine taken.resolve_left ?_
  simp [State.scanSet, scan_takeHeld]

/-- The takes of the held scans write of the host port the mask and, its stamp apart, the fault record alone. -/
theorem outer_takeHeld (s : State) :
    ∃ m f, s.takeHeld.outer = { s.outer with scan := m, fault := f } ∧ f.stamp = s.exm.fault.stamp :=
  keeps_foldl (P := fun t => ∃ m f, t.outer = { s.outer with scan := m, fault := f } ∧ f.stamp = s.exm.fault.stamp) allAreas
    (fun a _ t ⟨m, f, outer, stamp⟩ => by
      have takes := takesArea_takeArea t a
      have fault : t.exm.fault = f := congrArg Outer.fault outer
      exact ⟨_, _, by rw [takes.outer, outer], takes.stamp.trans (fault.symm ▸ stamp)⟩)
    ⟨_, _, rfl, rfl⟩

theorem takeHeld_of_none {s : State} (none : s.exm.scan = 0) : s.takeHeld = s :=
  keeps_foldl (P := fun t => t = s) allAreas (fun a _ t ht => by
    rw [ht]
    exact takeArea_of_unset (by simp [State.scanSet, none])) rfl

end Sys2Proof.Machine
end

section
/-! SUPPORT. The entry to RUNNING (R60, R64, R186, R192): the searches of the enabled subscriptions, the scans that are held, and the
TXINHIBIT line as it stands. -/

namespace Sys2Proof.Machine

/-! ### The searches that the entry begins (R60, R64) -/

/-- A subscription's turn at the entry: an enable that was taken before begins its search. -/
def State.enableTurn (s : State) (x : Sub) : State := if (s.set x).enable then s.enableSub x else s

/-- RUNNING, before anything is begun. -/
def State.nowRunning (s : State) : State := { s with exm := { s.exm with run := .running } }

/-- RUNNING, with the searches of the enabled subscriptions begun. -/
def State.entrySearches (s : State) : State := allSubs.foldl State.enableTurn s.nowRunning

/-- The TXINHIBIT line read as it stands (R192). -/
def State.lineRead (s : State) : State := { s with rpl := { s.rpl with inhibit := s.pins.txInhibit } }

theorem enterRunning_eq (s : State) : s.enterRunning = s.entrySearches.takeHeld.lineRead := rfl

theorem outer_enableTurn (s : State) (x : Sub) : (s.enableTurn x).outer = s.outer := outer_ite (outer_enableSub s x) rfl
theorem taken_enableTurn (s : State) (x : Sub) : (s.enableTurn x).taken = s.taken := taken_ite (taken_enableSub s x) rfl

theorem outer_entrySearches (s : State) : s.entrySearches.outer = { s.outer with run := .running } :=
  outer_foldl outer_enableTurn allSubs _

theorem enableTurn_of_enabled {s : State} {x : Sub} (enabled : (s.set x).enable = true) : s.enableTurn x = s.enableSub x :=
  if_pos enabled

/-- What is said of a subscription's side stays said over the other's turn. -/
theorem side_enableTurn_other {x : Sub} {R : SbcX → Prop} (blind : CountsBlind R) {s : State} (h : R (s.sbc.get x)) :
    R ((s.enableTurn (otherSub x)).sbc.get x) := by
  have A := allocSteady_side (x := x) blind
  refine keeps_ite (P := fun t => R (t.sbc.get x)) ?_ h
  unfold State.enableSub
  exact keeps_ite (P := fun t => R (t.sbc.get x))
    (A.beginPass (A.subUpd (fun _ => ⟨.inl rfl, .inr (by simp [OutOfService])⟩) h)) (A.recede Recedes.refl h)

/-- What the enable of an OFF subscription leaves its side with, the entry does. -/
theorem side_entrySearches {x : Sub} {R : SbcX → Prop} (blind : CountsBlind R) {s : State} (enabled : (s.set x).enable = true)
    (off : (s.sub x).state = .off)
    (own : ∀ t : State, (t.sub x).state = .off → t.taken = s.taken → t.now = s.now → R ((t.enableSub x).sbc.get x)) :
    R (s.entrySearches.sbc.get x) := by
  cases x with
  | a =>
    refine side_enableTurn_other (x := .a) (s := s.nowRunning.enableTurn .a) blind ?_
    rw [enableTurn_of_enabled (s := s.nowRunning) enabled]
    exact own s.nowRunning off rfl rfl
  | b =>
    let t := s.nowRunning.enableTurn .a
    have taken : t.taken = s.taken := taken_enableTurn s.nowRunning .a
    have still : (t.set .b).enable = true := (congrArg (fun w => (w.settings .b).enable) taken).trans enabled
    have idle : (t.sub .b).state = .off := side_enableTurn_other (x := .b) (R := fun b => b.part.state = .off)
      (fun _ _ _ _ h => h) (s := s.nowRunning) off
    change R ((t.enableTurn .b).sbc.get .b)
    rw [enableTurn_of_enabled still]
    exact own t idle taken (State.now_of_outer (s := s.nowRunning) (outer_enableTurn s.nowRunning .a))

/-- A pass under way for a subscription SEARCHING with a cause. -/
def SbcX.passRuns (c : ServiceCause) (b : SbcX) : Prop := b.searches c ∧ b.search.isSome = true

/-- The subscription SEARCHING as its enable is taken. -/
def State.enabledSearching (s : State) (x : Sub) : State := s.subUpd x fun r => { r with state := .searching, cause := .enabled }

theorem enableSub_of_off {s : State} {x : Sub} (off : (s.sub x).state = .off) :
    s.enableSub x = (s.enabledSearching x).beginPass x := if_pos off

theorem passRuns_enableSub {s : State} {x : Sub} (off : (s.sub x).state = .off) (any : ∃ r ∈ hostRecs, s.tryable x r = true) :
    ((s.enableSub x).sbc.get x).passRuns .enabled := by
  obtain ⟨r, rest, v, l, -, -, begins⟩ := beginPass_of_tryable (s := s.enabledSearching x) (x := x) any
  have here : (s.enabledSearching x).sub x = _ := State.sub_subUpd_same s x _
  rw [enableSub_of_off off, begins, Pair.get_set_same]
  exact ⟨⟨congrArg SubRec.state here, congrArg SubRec.cause here⟩, rfl⟩

theorem lostAt_enableSub {s : State} {x : Sub} (off : (s.sub x).state = .off)
    (untryable : ∀ r ∈ hostRecs, s.tryable x r = false) : ((s.enableSub x).sbc.get x).lostAt s.now := by
  rw [enableSub_of_off off]
  exact (lostAt_beginPass (s := s.enabledSearching x) untryable).1

/-- A pass that begins makes no request but a SEARCH. -/
theorem searchesJoin_beginPass (s : State) (x : Sub) : SearchesJoin s.tmu.deferred (s.beginPass x).tmu.deferred := by
  by_cases any : ∃ r ∈ hostRecs, s.tryable x r = true
  · obtain ⟨r, rest, v, l, -, joins, begins⟩ := beginPass_of_tryable any
    rw [begins]
    exact joins
  · rw [(lostAt_beginPass (s := s) (x := x) (by simpa using any)).2]
    exact fun _ hd => .inl hd

theorem searchesJoin_enableTurn (s : State) (x : Sub) : SearchesJoin s.tmu.deferred (s.enableTurn x).tmu.deferred := by
  have stands : SearchesJoin s.tmu.deferred s.tmu.deferred := fun _ hd => .inl hd
  unfold State.enableTurn State.enableSub
  exact keeps_ite (P := fun t => SearchesJoin s.tmu.deferred t.tmu.deferred)
    (keeps_ite (P := fun t => SearchesJoin s.tmu.deferred t.tmu.deferred) (searchesJoin_beginPass (s.enabledSearching x) x) stands)
    stands

/-- With no request waiting before it, SEARCH requests alone wait after the entry's searches. -/
theorem deferred_entrySearches {s : State} (quiet : s.tmu.deferred = []) : ∀ d ∈ s.entrySearches.tmu.deferred, d.role = .search :=
  keeps_foldl (P := fun t => ∀ d ∈ t.tmu.deferred, d.role = .search) allSubs
    (fun x _ t ht d hd => (searchesJoin_enableTurn t x d hd).elim (ht d) id) (s := s.nowRunning)
    (by simp [State.nowRunning, quiet])

/-! ### The entry and what follows it (R171, R186, R192) -/

theorem finishEntry_frame (s0 s : State) : ∃ q, s0.finishEntry s = { s0.finish s with pwc := q } := by
  unfold State.finishEntry
  dsimp only
  split
  · obtain ⟨q, decided, -⟩ := sleepDecision_frame (s0.finish s)
    exact ⟨q, decided⟩
  · exact ⟨_, rfl⟩

theorem sbc_finishEntry (s0 s : State) : (s0.finishEntry s).sbc = s.retried.sbc := by
  obtain ⟨q, ends⟩ := finishEntry_frame s0 s
  rw [ends]
  exact sbc_finish s0 s

theorem taken_finishEntry (s0 s : State) : (s0.finishEntry s).taken = s.taken := by
  obtain ⟨q, ends⟩ := finishEntry_frame s0 s
  rw [ends]
  exact taken_finish s0 s

/-- The host port, the pins and the line as the entry leaves them: RUNNING, every scan taken, the line read. -/
structure EntryLeaves (s t : State) : Prop where
  run     : t.exm.run = .running
  scan    : t.exm.scan = 0
  inhibit : t.rpl.inhibit = s.pins.txInhibit
  mem     : t.exm.mem = s.exm.mem
  pins    : t.pins = s.pins
  stamp   : t.exm.fault.stamp = s.exm.fault.stamp

theorem EntryLeaves.enterRunning (s : State) : EntryLeaves s s.enterRunning := by
  obtain ⟨m, f, outer, stamp⟩ := outer_takeHeld s.entrySearches
  rw [outer_entrySearches] at outer
  have line := congrArg (fun o => o.pins.txInhibit) outer
  exact ⟨congrArg Outer.run outer, scan_takeHeld _, line, congrArg Outer.mem outer, congrArg Outer.pins outer,
    (congrArg (fun o => o.fault.stamp) outer).trans (stamp.trans (congrArg (fun o => o.fault.stamp) (outer_entrySearches s)))⟩

/-- What follows the entry leaves all of it, and the fault record. -/
theorem EntryLeaves.finishEntry {s0 s t : State} (h : EntryLeaves s t) : EntryLeaves s (s0.finishEntry t) := by
  obtain ⟨q, ends⟩ := finishEntry_frame s0 t
  obtain ⟨mem, scan, fault, run⟩ := host_finish s0 t
  have same := outer_retried t
  rw [ends]
  exact ⟨run.trans h.run, scan.trans h.scan,
    (congrArg Rpl.inhibit (rpl_finish s0 t)).trans ((congrArg Outer.inhibit same).trans h.inhibit), mem.trans h.mem,
    (pins_finish s0 t).trans ((congrArg Outer.pins same).trans h.pins),
    (congrArg FaultRecord.stamp fault).trans h.stamp⟩

theorem fault_finishEntry (s0 s : State) : (s0.finishEntry s).exm.fault = s.exm.fault := by
  obtain ⟨q, ends⟩ := finishEntry_frame s0 s
  obtain ⟨-, -, fault, -⟩ := host_finish s0 s
  rw [ends]
  exact fault

/-- Every scan held is taken by the end of the entry. -/
theorem areaTaken_entry {u : State} {b : Area} (held : u.scanSet b = true) : (u.finishEntry u.enterRunning).areaTaken b := by
  have scan : u.entrySearches.exm.scan = u.exm.scan := congrArg Outer.scan (outer_entrySearches u)
  have posted : u.entrySearches.scanSet b = true := by rwa [State.scanSet, scan]
  have leaves := EntryLeaves.enterRunning u
  have mem : (u.finishEntry u.enterRunning).exm.mem = u.enterRunning.exm.mem := leaves.finishEntry.mem.trans leaves.mem.symm
  have taken := taken_finishEntry u u.enterRunning
  exact areaTaken_of_same (s := u.enterRunning) mem (fun _ => fault_finishEntry u u.enterRunning)
    (fun _ => congrArg Taken.settings taken) (fun _ => congrArg Taken.cells taken) (fun _ => congrArg Taken.calls taken)
    (fun _ => congrArg Taken.outbox taken) (fun _ => congrArg Taken.inbox taken)
    (areaTaken_of_same (s := u.entrySearches.takeHeld) rfl (fun _ => rfl) (fun _ => rfl) (fun _ => rfl) (fun _ => rfl)
      (fun _ => rfl) (fun _ => rfl) (areaTaken_takeHeld posted))

/-- With no scan held, the entry is its searches and the reading of the line. -/
theorem enterRunning_of_none {s : State} (none : s.exm.scan = 0) : s.enterRunning = s.entrySearches.lineRead := by
  rw [enterRunning_eq, takeHeld_of_none ((congrArg Outer.scan (outer_entrySearches s)).trans none)]

/-- A subscription whose search the entry begins, with a record to try and no request waiting. -/
theorem passRuns_entry {u : State} {x : Sub} (none : u.exm.scan = 0) (enabled : (u.set x).enable = true)
    (off : (u.sub x).state = .off) (quiet : u.tmu.deferred = []) (any : ∃ r ∈ hostRecs, u.tryable x r = true) :
    ((u.finishEntry u.enterRunning).sbc.get x).passRuns .enabled := by
  have waits : u.entrySearches.lineRead.searchesWait u.entrySearches.sbc := ⟨rfl, deferred_entrySearches quiet⟩
  rw [sbc_finishEntry, enterRunning_of_none none, (searchesWait_retried waits).1]
  refine side_entrySearches (fun _ _ _ _ h => h) enabled off fun t off taken now => ?_
  exact passRuns_enableSub off (by simpa only [tryable_of_taken taken now] using any)

/-- A subscription whose search the entry begins, with no record to try. -/
theorem lostAt_entry {u : State} {x : Sub} (none : u.exm.scan = 0) (enabled : (u.set x).enable = true)
    (off : (u.sub x).state = .off) (untryable : ∀ r ∈ hostRecs, u.tryable x r = false) :
    ((u.finishEntry u.enterRunning).sbc.get x).lostAt u.now := by
  rw [sbc_finishEntry, enterRunning_of_none none]
  refine side_retried (blind_lostAt u.now) lostAt_searchPreempted ?_
  refine side_entrySearches (s := u) (blind_lostAt u.now) enabled off fun t off taken now => ?_
  rw [← now]
  exact lostAt_enableSub off (by simpa only [tryable_of_taken taken now] using untryable)

theorem execRunningEntry_of_starting {s u : State} {dt : Nat} (time : u = s.advance dt) (released : s.pins.resetHeld = false)
    (starting : s.exm.run = .starting) : execRunningEntry dt s = .next (u.finishEntry u.enterRunning) := by
  subst time
  exact direct_of_due (by simp [alive_advance dt released, starting])

end Sys2Proof.Machine

open Sys2Proof Sys2Proof.Machine

/-- Settles O15: each held area is taken in its turn and no later one's take, nor a request retried, touches what it took; a search
begun before them is disturbed by neither the other subscription's nor the requests that wait. -/
theorem runningEntryStartsTheBlocks : Obligations.RunningEntryStartsTheBlocks := by
  intro s u dt time released starting
  have exm : u.exm = s.exm := by rw [time, exm_advance]
  have pins : u.pins = s.pins := by rw [time, pins_advance]
  have sides : u.sbc = s.sbc := by rw [time, sbc_advance]
  have leaves : EntryLeaves u (u.finishEntry u.enterRunning) := (EntryLeaves.enterRunning u).finishEntry
  have mem := leaves.mem
  refine ⟨_, execRunningEntry_of_starting time released starting, leaves.run, leaves.scan,
    leaves.inhibit.trans (congrArg Pins.txInhibit pins), mem.trans (congrArg Exm.mem exm), leaves.pins.trans pins,
    ?_, ?_, ?_, ?_, ?_, ?_, ?_⟩
  · intro subs x
    exact congrFun ((areaTaken_entry subs).trans (readSettings_of_mem mem)) x
  · intro cells x r host
    have follows := areaTaken_entry cells x r host
    rwa [readCell_of_mem mem] at follows
  · intro calls k
    have follows := areaTaken_entry calls k
    rw [State.callFollows, callStamp_of_mem mem, callNotify_of_mem mem] at follows
    exact Prod.mk.inj follows
  · intro outbox i
    have follows := areaTaken_entry outbox i
    rw [State.slotFollows, outStamp_of_mem mem, outNotify_of_mem mem] at follows
    exact Prod.mk.inj follows
  · intro inbox i
    exact (areaTaken_entry inbox i).trans (congrFun (inRelease_of_mem mem) i)
  · intro fault _ acked
    have unacked := areaTaken_entry fault
    refine Bool.eq_false_iff.2 fun still => unacked still ?_
    rw [faultAck_of_mem mem, acked, leaves.stamp]
  · intro none x enabled off
    rw [← exm] at none
    have enabled : (u.set x).enable = true := by rwa [State.set, sides]
    have off : (u.sub x).state = .off := by rwa [State.sub, sides]
    refine ⟨fun quiet any => ?_, fun untryable => ?_⟩
    · obtain ⟨⟨state, cause⟩, runs⟩ := passRuns_entry none enabled off quiet any
      exact ⟨state, cause, runs⟩
    · obtain ⟨state, cause, retry, -⟩ := lostAt_entry none enabled off untryable
      exact ⟨state, cause, retry⟩
end

section
/-! SUPPORT. The level filter's arithmetic (R85). -/

namespace Sys2Proof.Machine

/-- Truncation toward zero takes a step of the right sign, no longer than the whole difference. -/
theorem tdiv_toward_zero (d : Int) {n : Int} (pos : 0 < n) :
    (0 ≤ d → 0 ≤ d.tdiv n ∧ d.tdiv n ≤ d) ∧ (d ≤ 0 → d ≤ d.tdiv n ∧ d.tdiv n ≤ 0) := by
  have rising {e : Int} (h : 0 ≤ e) : 0 ≤ e.tdiv n ∧ e.tdiv n ≤ e :=
    ⟨Int.tdiv_nonneg h pos.le, Int.tdiv_le_self n h⟩
  refine ⟨rising, fun h => ?_⟩
  obtain ⟨low, high⟩ := rising (Int.neg_nonneg.2 h)
  rw [Int.neg_tdiv] at low high
  omega

theorem tdiv_eq_zero_of_small {d : Int} {n : Nat} (small : d.natAbs < n) : d.tdiv n = 0 := by
  rw [← Int.natAbs_eq_zero, Int.natAbs_tdiv, Int.natAbs_natCast]
  exact Nat.div_eq_of_lt small

theorem filtered_first {c : CellRec} (k smp : Nat) (first : c.count = 0) : filtered c k smp = 16 * smp := if_pos first

/-- The move of a later sample (R85): it never overshoots the sample, so the filtered level is no negative number. -/
theorem filtered_later {c : CellRec} (k smp : Nat) (later : c.count ≠ 0) :
    (filtered c k smp : Int) = (c.level : Int) + (16 * (smp : Int) - c.level).tdiv (2 ^ k) := by
  obtain ⟨rise, fall⟩ := tdiv_toward_zero (16 * (smp : Int) - c.level) (n := 2 ^ k) (by positivity)
  unfold filtered
  rw [if_neg later, Int.toNat_of_nonneg]
  omega

end Sys2Proof.Machine

open Sys2Proof Sys2Proof.Machine

/-- Settles O59: a truncated step goes toward the sample and stops short of it or at it. -/
theorem levelFilter : Obligations.LevelFilter := by
  intro c k smp
  refine ⟨filtered_first k smp, filtered_later k smp, fun later => ?_, fun later small => ?_⟩
  · have moved := filtered_later k smp later
    obtain ⟨rise, fall⟩ := tdiv_toward_zero (16 * (smp : Int) - c.level) (n := 2 ^ k) (by positivity)
    omega
  · have moved := filtered_later k smp later
    have still : (16 * (smp : Int) - c.level).tdiv (2 ^ k) = 0 := by
      exact_mod_cast tdiv_eq_zero_of_small small
    rw [still] at moved
    omega
end

section
/-! The take of CELLS as a whole (R80, R185). -/

open Sys2Proof Sys2Proof.Machine

/-- Settles O25: neither the notices of the take nor a request retried touches what it has read. -/
theorem cellsTakeReadsRecords : Obligations.CellsTakeReadsRecords := by
  intro s u dt time working posted
  refine ⟨_, block_of_passed time working posted, ?_⟩
  obtain ⟨mem, scan, -⟩ := host_finish u u.takeCells
  have outer := outer_takeCells u
  have kept : u.takeCells.exm.mem = u.exm.mem := congrArg Outer.mem outer
  refine ⟨scan.trans (congrArg Outer.scan outer), mem.trans (kept.trans (mem_passed time)), fun x r host => ?_⟩
  have follows := areaTaken_takeArea_same posted x r host
  have takes : u.takeArea .cells = u.takeCells := if_pos posted
  rw [takes, readCell_of_mem kept, ← taken_finish u] at follows
  exact follows

end

section
/-! SUPPORT. A LEVEL report of a MEASURE that one subscription asked for (R84, R92): the sample it is, and what the end of its
occupancy leaves. -/

namespace Sys2Proof.Machine

theorem execLevelReport_of_heard {s u : State} {dt : Nat} {h : Handle} {o : Occ} (level : Nat) (time : u = s.advance dt)
    (working : u.working = true) (heard : u.heardBy h (fun k => k == .measure) = some o) :
    execLevelReport dt h level s = .next (u.finish ((u.routeLevel o level).concludeDone o.handle)) := by
  unfold execLevelReport State.report
  rw [block_of_passed time working (by rw [heard]; rfl), heard]

/-- The LEVEL of a MEASURE that one subscription asked for, and that is no probe, is a sample for that subscription alone. -/
theorem routeLevel_of_lone {s : State} {o : Occ} {x : Sub} {k : Key} (level : Nat) (content : o.content = .level k none)
    (routed : s.routes o = true) (here : o.asks x = true) (lone : o.asks (otherSub x) = false) :
    s.routeLevel o level = s.sample x k level s.now false := by
  unfold State.routeLevel
  rw [if_neg (by simp [routed]), content]
  cases x with
  | a => have b : o.asks .b = false := lone; simp [allSubs, here, b]
  | b => have a : o.asks .a = false := lone; simp [allSubs, here, a]

/-- A sample of a key that a record holds is one update of that record. -/
theorem sample_of_record {s : State} {x : Sub} {k : Key} {r : Fin 18} (record : s.recordFor x k = some r)
    (raw time : Nat) (served : Bool) : s.sample x k raw time served = s.cellUpd x r fun c =>
      c.sampled (s.set x) (s.sub x).state served (s.sub x).evals (sampleOf raw) time := by
  unfold State.sample
  rw [record]

/-- An area's PENDING bit, once set, is not cleared by outcomes. -/
theorem steady_raised (a : Area) : Steady fun t => t.exm.attn &&& areaMask a ≠ 0 := by
  have stays {v : BitVec 9} (b : Area) (h : v &&& areaMask a ≠ 0) : (v ||| areaMask b) &&& areaMask a ≠ 0 := by
    intro zero
    refine h ?_
    ext i hi
    have bit := congrArg (fun w => w.getLsbD i) zero
    simp at bit ⊢
    tauto
  exact ⟨fun h => h, fun h => h, stays _, fun _ => stays .subs, fun _ h => h⟩

theorem cell_of_cmu {s t : State} (h : t.cmu = s.cmu) (x : Sub) (r : Fin 18) : t.cell x r = s.cell x r := by
  unfold State.cell
  rw [h]

/-- What ends with an occupancy DONE leaves the tables, the memory and the PENDING bits that were set. -/
theorem finish_concludeDone_frame {s u : State} (unfreed : s.tmu.freed = false) (h : Handle) (a : Area) :
    (u.finish (s.concludeDone h)).cmu = s.cmu ∧ (u.finish (s.concludeDone h)).exm.mem = s.exm.mem ∧
      (s.exm.attn &&& areaMask a ≠ 0 → (u.finish (s.concludeDone h)).exm.attn &&& areaMask a ≠ 0) := by
  have tmu := (steady_tmu s.tmu).concludeDone (hd := h) rfl
  rw [cmu_finish, exm_finish, retried_of_unfreed ((congrArg Tmu.freed tmu).trans unfreed)]
  exact ⟨(steady_cmu s.cmu).concludeDone rfl, (steady_mem s.exm.mem).concludeDone rfl, (steady_raised a).concludeDone⟩

end Sys2Proof.Machine

open Sys2Proof Sys2Proof.Machine

/-- Settles O34: the report is routed to the one requester's record, and the end of the occupancy touches no record. -/
theorem levelReportIsASample : Obligations.LevelReportIsASample := by
  intro s u dt h level o x k r time working marks first kind content inTime routed here lone record
  have heard : u.heardBy h (fun k => k == .measure) = some o :=
    heardBy_of_first_started first (by rw [kind]; rfl) inTime
  refine ⟨_, execLevelReport_of_heard level time working heard, ?_⟩
  rw [routeLevel_of_lone level content routed here lone, sample_of_record record]
  obtain ⟨cmu, mem, raised⟩ := finish_concludeDone_frame (s := u.cellUpd x r fun c =>
    c.sampled (u.set x) (u.sub x).state false (u.sub x).evals (sampleOf level) u.now) (u := u)
    (unfreed_of_marksOk marks).1 o.handle .cells
  have kept : u.exm.mem = s.exm.mem := mem_passed time
  refine ⟨?_, fun q other => ?_, fun q => ?_, raised (raised_bit u.exm.attn .cells), mem.trans kept⟩
  · rw [cell_of_cmu cmu, State.cell_cellUpd_same]
    rfl
  · rw [cell_of_cmu cmu, cell_cellUpd_other u x other]
  · rw [cell_of_cmu cmu, cell_cellUpd_sub u (otherSub_ne x)]
end


section
/-! SUPPORT. What the records say of a call, of a handover and of the calls dropped, whatever outcomes, requests, searches and offers
write beside it: the ledger. A command that ends a call, gives a report up or leaves a cell changes it (R39, R111, R125, R131). -/

namespace Sys2Proof.Machine

/-- How a call stands: its owner, its state and its up slot, and how and when it ended. -/
structure CallStand where
  state   : CallState
  owner   : Sub
  up      : Nat
  cause   : CallCause
  endTime : Nat

def CallRec.stand (r : CallRec) : CallStand :=
  { state := r.state, owner := r.owner, up := r.up, cause := r.cause, endTime := r.endTime }

/-- A handover machine but for its claims on the up slot and its arrivals, which an offer may write (R113, R120). -/
def HoMachine.course (m : HoMachine) : HoMachine := { m with claims := [], arrivals := 0 }

/-- How the calls stand, the course of each handover, and the drop counts. -/
structure Ledger where
  drops    : Sub → Nat
  calls    : Fin 4 → CallStand
  machines : Sub → HoMachine

def State.ledger (s : State) : Ledger :=
  { drops := fun x => (s.sub x).drops, calls := fun k => (s.call k).part.stand, machines := fun x => (s.machine x).course }

theorem ledger_foldl {α : Type} {f : State → α → State} (turn : ∀ s a, (f s a).ledger = s.ledger) (l : List α) (s : State) :
    (l.foldl f s).ledger = s.ledger :=
  keeps_foldl (P := fun t => t.ledger = s.ledger) l (fun a _ t ht => (turn t a).trans ht) rfl

theorem ledger_ite {c : Prop} [Decidable c] {s t u : State} (hs : s.ledger = u.ledger) (ht : t.ledger = u.ledger) :
    (if c then s else t).ledger = u.ledger := keeps_ite (P := fun t => t.ledger = u.ledger) hs ht

/-! ### Updates -/

@[simp] theorem ledger_raise (s : State) (a : Area) : (s.raise a).ledger = s.ledger := (rfl)
@[simp] theorem ledger_modCtx (s : State) (c : Fin 3) (f : Ctx → Ctx) : (s.modCtx c f).ledger = s.ledger := (rfl)
@[simp] theorem ledger_modTable (s : State) (x : Sub) (f : CellTable → CellTable) : (s.modTable x f).ledger = s.ledger := (rfl)
@[simp] theorem ledger_cellUpd (s : State) (x : Sub) (r : Fin 18) (f : CellRec → CellRec) :
    (s.cellUpd x r f).ledger = s.ledger := (rfl)
@[simp] theorem ledger_withdraw (s : State) (x : Sub) (p : Occ → Bool) : (s.withdraw x p).ledger = s.ledger := (rfl)
@[simp] theorem ledger_withdrawAll (s : State) (x : Sub) : (s.withdrawAll x).ledger = s.ledger := (rfl)
@[simp] theorem ledger_withdrawSeek (s : State) (x : Sub) (c : Fin 3) : (s.withdrawSeek x c).ledger = s.ledger := (rfl)
@[simp] theorem ledger_modSide (s : State) (x : Sub) (f : SendSide → SendSide) : (s.modSide x f).ledger = s.ledger := (rfl)
@[simp] theorem ledger_modReasm (s : State) (r : Fin 4) (f : Reasm → Reasm) : (s.modReasm r f).ledger = s.ledger := (rfl)
@[simp] theorem ledger_slotUpd (s : State) (i : Fin 8) (b : Bool) (f : OutSlot → OutSlot) :
    (s.slotUpd i b f).ledger = s.ledger := by cases b <;> rfl
@[simp] theorem ledger_setDecline (s : State) (x : Sub) (r : Option Ref) : (s.setDecline x r).ledger = s.ledger := (rfl)
@[simp] theorem ledger_dropReceipts (s : State) (x : Sub) : (s.dropReceipts x).ledger = s.ledger := (rfl)

theorem ledger_modSbc (s : State) (x : Sub) {f : SbcX → SbcX}
    (keeps : ∀ b, (f b).part.drops = b.part.drops := by exact fun _ => rfl) : (s.modSbc x f).ledger = s.ledger := by
  refine congrArg (fun v => { s.ledger with drops := v }) (funext fun y => ?_)
  by_cases here : y = x
  · subst here; rw [State.sub_modSbc_same, keeps]; rfl
  · rw [State.sub_modSbc_other s here]

theorem ledger_subUpd (s : State) (x : Sub) {f : SubRec → SubRec}
    (keeps : ∀ r, (f r).drops = r.drops := by exact fun _ => rfl) : (s.subUpd x f).ledger = s.ledger :=
  ledger_modSbc s x (f := fun b => { b with part := { f b.part with change := b.part.change + 1 } }) fun b => keeps b.part

theorem ledger_subSet (s : State) (x : Sub) {f : SubRec → SubRec}
    (keeps : ∀ r, (f r).drops = r.drops := by exact fun _ => rfl) : (s.subSet x f).ledger = s.ledger :=
  ledger_ite rfl (ledger_subUpd s x keeps)

theorem ledger_modMbu (s : State) (x : Sub) {f : MbuX → MbuX}
    (keeps : ∀ m, (f m).machine.course = m.machine.course := by exact fun _ => rfl) : (s.modMbu x f).ledger = s.ledger := by
  refine congrArg (fun v => { s.ledger with machines := v }) (funext fun y => ?_)
  by_cases here : y = x
  · subst here
    simpa [State.machine, State.modMbu] using keeps (s.mbu.get y)
  · simp [State.machine, State.modMbu, here]

theorem ledger_modMachine (s : State) (x : Sub) {f : HoMachine → HoMachine}
    (keeps : ∀ m, (f m).course = m.course := by exact fun _ => rfl) : (s.modMachine x f).ledger = s.ledger :=
  ledger_modMbu s x (f := fun m => { m with machine := f m.machine }) fun m => keeps m.machine

theorem ledger_modCall (s : State) (k : Fin 4) {f : Call → Call}
    (keeps : ∀ c, (f c).part.stand = c.part.stand := by exact fun _ => rfl) : (s.modCall k f).ledger = s.ledger := by
  refine congrArg (fun v => { s.ledger with calls := v }) (funext fun j => ?_)
  by_cases here : j = k
  · subst here; rw [State.call_modCall_same, keeps]
  · rw [State.call_modCall_other s here]

theorem ledger_callUpd (s : State) (k : Fin 4) {f : CallRec → CallRec}
    (keeps : ∀ r, (f r).stand = r.stand := by exact fun _ => rfl) : (s.callUpd k f).ledger = s.ledger :=
  ledger_modCall s k (f := fun c => { c with part := { f c.part with change := c.part.change + 1 } }) fun c => keeps c.part

theorem ledger_callStatusUpd (s : State) (k : Fin 4) {f : CallRec → CallRec}
    (keeps : ∀ r, (f r).stand = r.stand := by exact fun _ => rfl) : (s.callStatusUpd k f).ledger = s.ledger :=
  ledger_ite (ledger_callUpd s k keeps) (ledger_callUpd s k keeps)

/-! ### Texts and voice (chapters 8 and 9) -/

@[simp] theorem ledger_promote (s : State) (y : Sub) : (s.promote y).ledger = s.ledger := by
  unfold State.promote
  split
  · rfl
  · exact ledger_ite rfl rfl

@[simp] theorem ledger_leaveQueue (s : State) (y : Sub) (i : Fin 8) : (s.leaveQueue y i).ledger = s.ledger :=
  ledger_ite (ledger_promote _ y) rfl

@[simp] theorem ledger_finishHead (s : State) (y : Sub) (st : OutState) (f : OutSlot → OutSlot) :
    (s.finishHead y st f).ledger = s.ledger := by
  unfold State.finishHead
  split
  · rfl
  · exact ledger_leaveQueue _ _ _

@[simp] theorem ledger_abandon (s : State) (y : Sub) : (s.abandon y).ledger = s.ledger := by
  unfold State.abandon
  split
  · exact ledger_ite (ledger_finishHead _ _ _ _) rfl
  · rfl

@[simp] theorem ledger_attemptFailed (s : State) (y : Sub) (e : Frame) :
    (s.attemptFailed y e).ledger = s.ledger := by
  unfold State.attemptFailed
  split
  · rfl
  · exact ledger_ite (ledger_finishHead _ _ _ _) rfl

@[simp] theorem ledger_segmentOutcome (s : State) (y : Sub) (h : Handle) (ref : Ref) (e : Ending) :
    (s.segmentOutcome y h ref e).ledger = s.ledger := by
  unfold State.segmentOutcome
  dsimp only
  split
  · rfl
  · refine ledger_ite ?_ rfl
    split
    · exact ledger_ite (ledger_abandon s y) (ledger_abandon s y)
    · exact ledger_abandon s y
  · refine ledger_ite ?_ rfl
    split
    · exact ledger_attemptFailed s y _
    · rfl

@[simp] theorem ledger_receiptOutcome (s : State) (y : Sub) (ref : Ref) (w : Option (Fin 4)) (e : Ending) :
    (s.receiptOutcome y ref w e).ledger = s.ledger := by
  unfold State.receiptOutcome
  split
  · exact ledger_ite rfl rfl
  · rfl

@[simp] theorem ledger_textsLost (s : State) (y : Sub) : (s.textsLost y).ledger = s.ledger := by
  refine (ledger_abandon _ y).trans ?_
  unfold State.pauseHead
  split
  · rfl
  · exact ledger_ite rfl rfl

@[simp] theorem ledger_failQueue (s : State) (y : Sub) (c : FailCause) : (s.failQueue y c).ledger = s.ledger := by
  unfold State.failQueue
  exact ledger_foldl (fun t i => ledger_slotUpd t i true _) (s.side y).queue _

@[simp] theorem ledger_dropReasm (s : State) (p : Reasm → Bool) : (s.dropReasm p).ledger = s.ledger :=
  ledger_foldl (fun t r => ledger_ite (ledger_modReasm t r _) rfl) allReasm s
@[simp] theorem ledger_dropCollecting (s : State) (y : Sub) : (s.dropCollecting y).ledger = s.ledger :=
  ledger_dropReasm s _

@[simp] theorem ledger_upWrite (s : State) (j : Fin 4) (f : Frame) (o : UpOutcome) : (s.upWrite j f o).ledger = s.ledger :=
  ledger_callStatusUpd s j
@[simp] theorem ledger_upFinal (s : State) (j : Fin 4) (f : Frame) (o : UpOutcome) : (s.upFinal j f o).ledger = s.ledger :=
  ledger_ite (ledger_upWrite s j f o) rfl

@[simp] theorem ledger_expectDown (s : State) (j : Fin 4) (c : Fin 3) (f : Frame) (o : Option DownOutcome) :
    (s.expectDown j c f o).ledger = s.ledger := ledger_modCall s j

@[simp] theorem ledger_downWrite (s : State) (j : Fin 4) (p : DownPending) : (s.downWrite j p).ledger = s.ledger := by
  unfold State.downWrite
  split
  · rfl
  · exact (ledger_raise _ _).trans ((ledger_callUpd _ j).trans
      (ledger_modCall s j))

@[simp] theorem ledger_flush (s : State) (j : Fin 4) (p : DownPending → Bool) : (s.flush j p).ledger = s.ledger :=
  ledger_foldl (fun t q => ledger_downWrite t j q) _ s

@[simp] theorem ledger_dropUplinks (s : State) (j : Fin 4) : (s.dropUplinks j).ledger = s.ledger := by
  unfold State.dropUplinks
  exact ledger_foldl (fun t o => ledger_upFinal t j _ _) _ s

/-! ### Cells (chapter 5) -/

@[simp] theorem ledger_cellSet (s : State) (y : Sub) (r : Fin 18) (f : CellRec → CellRec) :
    (s.cellSet y r f).ledger = s.ledger := ledger_ite rfl rfl

@[simp] theorem ledger_moveRole (s : State) (y : Sub) (old new : CellRole) :
    (s.moveRole y old new).ledger = s.ledger :=
  ledger_foldl (fun t r => ledger_ite (ledger_cellSet t y r _) rfl) allRecs s
@[simp] theorem ledger_dropServing (s : State) (y : Sub) : (s.dropServing y).ledger = s.ledger := ledger_moveRole s y _ _
@[simp] theorem ledger_dropTarget (s : State) (y : Sub) : (s.dropTarget y).ledger = s.ledger := ledger_moveRole s y _ _

@[simp] theorem ledger_zeroDwell (s : State) (y : Sub) : (s.zeroDwell y).ledger = s.ledger :=
  ledger_foldl (fun t r => ledger_cellSet t y r _) allRecs s

@[simp] theorem ledger_dropProbes (s : State) (y : Sub) : (s.dropProbes y).ledger = s.ledger := by
  refine ledger_foldl (fun t r => ?_) hostRecs s
  unfold State.completeProbe
  split <;> rfl

/-! ### Outcomes, and users that leave (R19, R39) -/

@[simp] theorem ledger_pagingOutcome (s : State) (y : Sub) (e : Ending) : (s.pagingOutcome y e).ledger = s.ledger := by
  have lent : (s.lendOutcome y e).ledger = s.ledger := ledger_subSet s y
  have missed : ((s.lendOutcome y e).windowMissed y).ledger = s.ledger :=
    (ledger_ite (ledger_subSet (s.lendOutcome y e) y) rfl).trans lent
  cases e with
  | silent | aborted => exact missed
  | done | denied | missed => exact lent

@[simp] theorem ledger_callOutcome (s : State) (j : Fin 4) (o : Occ) (e : Ending) :
    (s.callOutcome j o e).ledger = s.ledger := by
  unfold State.callOutcome
  split
  · exact ledger_ite (ledger_modCall s j) rfl
  · exact ledger_upFinal s j _ _
  · exact ledger_upFinal s j _ _
  · rfl

@[simp] theorem ledger_deliverTo (s : State) (o : Occ) (e : Ending) (y : Sub) :
    (s.deliverTo o e y).ledger = s.ledger := by
  unfold State.deliverTo
  split
  · rfl
  · next w _ =>
    have paged : (if w.kind = .paging then s.pagingOutcome y e else s).ledger = s.ledger :=
      ledger_ite (ledger_pagingOutcome s y e) rfl
    dsimp only
    rw [← paged]
    split
    · exact ledger_callOutcome _ _ _ _
    · exact ledger_segmentOutcome _ _ _ _ _
    · exact ledger_receiptOutcome _ _ _ _ _
    · rfl

@[simp] theorem ledger_deliverDenials (s : State) (l : List (Occ × Denial)) : (s.deliverDenials l).ledger = s.ledger := by
  unfold State.deliverDenials
  exact ledger_foldl (fun t p => (ledger_deliverTo _ _ _ .b).trans (ledger_deliverTo t _ _ .a)) l s

@[simp] theorem ledger_revoke (s : State) (c : Fin 3) (n : Nat) : (s.revoke c n).ledger = s.ledger := ledger_deliverDenials _ _

@[simp] theorem ledger_removeUser (s : State) (c : Fin 3) (r : Role) (y : Sub) :
    (s.removeUser c r y).ledger = s.ledger := by
  have seeks : (if isSeek r = true then (s.modCtx c fun k => k.dropUser r y).withdrawSeek y c
      else s.modCtx c fun k => k.dropUser r y).ledger = s.ledger := ledger_ite rfl rfl
  exact ledger_ite (ledger_ite ((ledger_revoke _ _ _).trans seeks) seeks) rfl

@[simp] theorem ledger_removeRole (s : State) (r : Role) (y : Sub) : (s.removeRole r y).ledger = s.ledger := by
  unfold State.removeRole
  dsimp only
  split
  · exact ledger_removeUser _ _ _ _
  · rfl

@[simp] theorem ledger_unstage (s : State) (j : Fin 4) : (s.unstage j).ledger = s.ledger := by
  refine ledger_foldl (fun t c => ?_) allCtx s
  split
  · exact ledger_ite rfl rfl
  · rfl

/-! ### Search passes, allocation and retries (R20 to R22, R64, R65) -/

theorem ledger_tryRecords {s t : State} {y : Sub} {l : List (Fin 18)} (tried : s.tryRecords y l = some t) :
    t.ledger = s.ledger := by
  obtain ⟨r, rest, rfl⟩ := tryRecords_attempts tried
  obtain ⟨v, l, attempts, -⟩ := attempt_frame s y r rest
  rw [attempts]
  exact ledger_modSbc s y (f := fun b => b.attempting s y r rest) fun _ => rfl

@[simp] theorem ledger_enterLost (s : State) (y : Sub) (c : ServiceCause) : (s.enterLost y c).ledger = s.ledger :=
  (ledger_dropProbes _ y).trans ((ledger_subUpd _ y).trans (ledger_modSbc s y))

@[simp] theorem ledger_beginPass (s : State) (y : Sub) : (s.beginPass y).ledger = s.ledger := by
  unfold State.beginPass
  dsimp only
  split
  · next tried => exact (ledger_tryRecords tried).trans (ledger_modSbc s y)
  · exact (ledger_enterLost _ y _).trans (ledger_modSbc s y)

@[simp] theorem ledger_searchPreempted (s : State) (y : Sub) : (s.searchPreempted y).ledger = s.ledger := by
  have displaced : (s.passDisplaced y).ledger = s.ledger := ledger_modSbc s y
  rw [searchPreempted_eq, ← displaced]
  unfold State.nextAttempt
  split
  · rfl
  · next p _ =>
    have ended : ((s.passDisplaced y).attemptOver y p).ledger = (s.passDisplaced y).ledger :=
      ledger_modSbc _ y
    dsimp only
    split
    · next tried => exact (ledger_tryRecords tried).trans ended
    · exact ledger_ite ((ledger_beginPass _ y).trans ended) ((ledger_enterLost _ y _).trans ended)

@[simp] theorem ledger_preempt (s : State) (c : Fin 3) (u : User) (r : Role) (y : Sub) (key : Key) :
    (s.preempt c u r y key).ledger = s.ledger := by
  have told (t : State) (old : Key) : (t.tellPreempted u old).ledger = t.ledger := by
    unfold State.tellPreempted
    split
    · exact ledger_searchPreempted t u.sub
    · exact ledger_modMbu t u.sub
    · rfl
  exact (ledger_revoke _ _ _).trans (told _ _)

@[simp] theorem ledger_allocate (s : State) (r : Role) (y : Sub) (key : Key) :
    (s.allocate r y key).ledger = s.ledger := by
  unfold State.allocate
  split
  · next joined =>
    obtain ⟨v, rfl⟩ := tryJoin_frame joined
    rfl
  · refine ledger_ite rfl ?_
    split
    · exact ledger_preempt _ _ _ _ _ _
    · rfl

@[simp] theorem ledger_finish (s0 s : State) : (s0.finish s).ledger = s.ledger := by
  obtain ⟨q, fin⟩ := finish_eq s0 s
  rw [fin]
  refine ledger_ite (u := s) (ledger_foldl (fun t o => ?_) retryOrder s) rfl
  split
  · exact ledger_ite (ledger_allocate _ _ _ _) rfl
  · rfl

/-! ### Leaving service (R61, R63) -/

@[simp] theorem ledger_endListen (s : State) (y : Sub) : (s.endListen y).ledger = s.ledger := by
  unfold State.endListen
  split
  · rfl
  · exact (ledger_withdraw _ _ _).trans (ledger_subUpd s y)

@[simp] theorem ledger_noWindow (s : State) (y : Sub) : (s.noWindow y).ledger = s.ledger :=
  ledger_modSbc s y

@[simp] theorem ledger_dropReselection (s : State) (y : Sub) : (s.dropReselection y).ledger = s.ledger :=
  (ledger_removeRole _ _ y).trans (ledger_modMbu s y)
@[simp] theorem ledger_discardRanking (s : State) (y : Sub) : (s.discardRanking y).ledger = s.ledger :=
  (ledger_zeroDwell _ y).trans ((ledger_modMbu _ y).trans (ledger_dropReselection s y))

end Sys2Proof.Machine
end


section
/-! SUPPORT. A call that is dropped with its subscription's service (R88, R125, R128): the record of its end and the drop count stand
through the whole of what leaving service brings about, the requests retried in the contexts it frees included. -/

namespace Sys2Proof.Machine

/-! ### Leaving service (R61, R63, R111) -/

/-- The ledger with the course of one handover let go. -/
def Ledger.idle (v : Ledger) (x : Sub) : Ledger :=
  { v with machines := fun y => if y = x then HoMachine.reset else v.machines y }

theorem ledger_resetMachine_idle (s : State) (x : Sub) : (s.resetMachine x .idle).ledger = s.ledger.idle x := by
  refine congrArg (fun v => { s.ledger with machines := v }) (funext fun y => ?_)
  by_cases here : y = x
  · subst here
    simp only [if_pos]
    exact congrArg HoMachine.course (State.machine_modMachine_same s y _)
  · rw [if_neg here]
    exact congrArg HoMachine.course (State.machine_modMachine_other s here _)

theorem ledger_leaveCell (s : State) (x : Sub) : (s.leaveCell x).ledger = s.ledger.idle x := by
  have unwindowed (t : State) : (t.noWindow x).ledger = t.ledger := ledger_modSbc t x
  have unserved (t : State) : (t.subSet x fun r => { r with serving := none }).ledger = t.ledger := ledger_subSet t x
  simp [State.leaveCell, unwindowed, unserved, ledger_resetMachine_idle]

theorem ledger_enterSearching (s : State) (x : Sub) (c : ServiceCause) : (s.enterSearching x c).ledger = s.ledger.idle x := by
  have searching (t : State) : (t.subUpd x fun r => { r with state := .searching, cause := c }).ledger = t.ledger :=
    ledger_subUpd t x
  simp [State.enterSearching, searching, ledger_leaveCell]

/-! ### Calls that end (R147) -/

/-- What a call's end does up to the write of its record, which has the present as its time. -/
theorem closeCall_of_ledger (s : State) (k : Fin 4) (cause : CallCause) (byte : BitVec 8) : ∃ t : State,
    t.ledger = s.ledger ∧ s.closeCall k cause byte =
      t.callUpd k fun r => { r with state := .ended, cause := cause, causeByte := byte, endTime := s.now } := by
  have withdrawn (x : Sub) (p : Occ → Bool) : (((s.flush k s.downReady).dropUplinks k).withdraw x p).ledger = s.ledger ∧
      (((s.flush k s.downReady).dropUplinks k).withdraw x p).outer = s.outer := by simp
  have unclaimed (x : Sub) (t : State) : (t.modMachine x fun m => { m with claims := [] }).ledger = t.ledger :=
    ledger_modMachine t x
  have claims (x : Sub) (p : Occ → Bool) := keeps_ite (P := fun t => t.ledger = s.ledger ∧ t.outer = s.outer)
    (c := s.holding k = true)
    (s := (((s.flush k s.downReady).dropUplinks k).withdraw x p).modMachine x fun m => { m with claims := [] })
    ⟨(unclaimed x _).trans (withdrawn x p).1, (withdrawn x p).2⟩ (withdrawn x p)
  obtain ⟨ledger, outer⟩ := claims (s.call k).part.owner (ofCall (s.call k).part.owner k (s.holding k))
  unfold State.closeCall
  dsimp only
  generalize (if s.holding k = true then _ else _ : State) = t at ledger outer ⊢
  rw [← State.now_of_outer outer]
  exact ⟨_, (ledger_unstage _ k).trans ((ledger_modCall t k).trans ledger), rfl⟩

/-- How a call stands that has ended at `n`. -/
def CallStand.ended (c : CallStand) (cause : CallCause) (n : Nat) : CallStand :=
  { c with state := .ended, cause := cause, endTime := n }

/-- The call's end is written in its own record alone. -/
theorem ledger_closeCall (s : State) (k : Fin 4) (cause : CallCause) (byte : BitVec 8) :
    (s.closeCall k cause byte).ledger = { s.ledger with
      calls := fun j => if j = k then (s.ledger.calls k).ended cause s.now else s.ledger.calls j } := by
  obtain ⟨t, ledger, closed⟩ := closeCall_of_ledger s k cause byte
  rw [closed, ← ledger]
  refine congrArg (fun v => { t.ledger with calls := v }) (funext fun j => ?_)
  by_cases here : j = k
  · subst here
    rw [State.call_callUpd_same, if_pos rfl]
    rfl
  · rw [State.call_callUpd_other t here, if_neg here]
    rfl

/-- A call that is not RINGING is not among those that a disable ends. -/
theorem ledger_disableRinging {s : State} (x : Sub) {k : Fin 4} (quiet : (s.ledger.calls k).state ≠ .ringing) :
    (s.disableRinging x).ledger.calls k = s.ledger.calls k ∧ (s.disableRinging x).ledger.drops = s.ledger.drops := by
  refine keeps_foldl (P := fun t => t.ledger.calls k = s.ledger.calls k ∧ t.ledger.drops = s.ledger.drops) allCalls
    (fun j _ t ht => ?_) ⟨rfl, rfl⟩
  split
  · next ringing =>
    have other : k ≠ j := fun same => quiet (ht.1 ▸ same ▸ ringing.1)
    rw [ledger_closeCall]
    exact ⟨(if_neg other).trans ht.1, ht.2⟩
  · exact ht

theorem ledger_goOff {s : State} (x : Sub) {k : Fin 4} (quiet : (s.ledger.calls k).state ≠ .ringing) :
    (s.goOff x).ledger.calls k = s.ledger.calls k ∧ (s.goOff x).ledger.drops = s.ledger.drops := by
  have off (t : State) : (t.subUpd x fun r => { r with state := .off, cause := .none, history := [] }).ledger = t.ledger :=
    ledger_subUpd t x
  have idle (t : State) : (t.modSbc x fun b => { b with
      search := none, lostRetry := none, disableHeld := false, areaKnown := false }).ledger = t.ledger := ledger_modSbc t x
  unfold State.goOff
  dsimp only
  rw [ledger_raise, ledger_raise, ledger_dropProbes]
  generalize left : State.dropReceipts _ x = t
  have ledger : t.ledger = s.ledger.idle x := by simp [← left, off, idle, ledger_leaveCell]
  have calls : t.ledger.calls k = s.ledger.calls k := congrArg (fun v => v.calls k) ledger
  obtain ⟨kept, drops⟩ := ledger_disableRinging x (s := t) (k := k) (calls ▸ quiet)
  have same : t.ledger.drops = s.ledger.drops := by rw [ledger]; rfl
  exact ⟨kept.trans calls, drops.trans same⟩

/-- A call dropped with its subscription's service has ended at the present with its cause, and the drop count has risen. -/
theorem ledger_dropCall {s : State} {x : Sub} {k : Fin 4} (call : s.callOf x = some k) (cause : CallCause)
    (service : ServiceCause) :
    (s.dropCall x cause service).ledger.calls k = (s.ledger.calls k).ended cause s.now ∧
      (s.dropCall x cause service).ledger.drops x = satInc 65535 (s.ledger.drops x) := by
  unfold State.dropCall
  rw [call]
  dsimp only
  generalize counted : State.subUpd _ x _ = t
  have calls : t.ledger.calls k = (s.ledger.calls k).ended cause s.now := by
    rw [← counted, ← if_pos (c := k = k) rfl (t := (s.ledger.calls k).ended cause s.now) (e := s.ledger.calls k)]
    exact congrArg (fun v => v.calls k) (ledger_closeCall s k cause 0)
  have drops : t.ledger.drops x = satInc 65535 (s.ledger.drops x) := by
    have closed : ((s.closeCall k cause 0).sub x).drops = s.ledger.drops x :=
      congrArg (fun v => v.drops x) (ledger_closeCall s k cause 0)
    rw [← counted, ← closed]
    exact congrArg SubRec.drops (State.sub_subUpd_same _ x _)
  refine keeps_ite (P := fun v => v.ledger.calls k = _ ∧ v.ledger.drops x = _) ?_ ?_
  · obtain ⟨kept, same⟩ := ledger_goOff x (s := t) (k := k) (by rw [calls]; simp [CallStand.ended])
    exact ⟨kept.trans calls, (congrFun same x).trans drops⟩
  · rw [ledger_enterSearching]
    exact ⟨calls, drops⟩

/-! ### The drop as a whole (R88, R125, R128) -/

/-- What a dropped call and its subscription are left with once the command is over. -/
structure CallDropped (u : State) (x : Sub) (k : Fin 4) (cause : CallCause) (t : State) : Prop where
  call  : t.ledger.calls k = (u.ledger.calls k).ended cause u.now
  drops : t.ledger.drops x = satInc 65535 (u.ledger.drops x)
  out   : t.outOf x

theorem callDropped (s0 : State) {u : State} {x : Sub} {k : Fin 4} (call : u.callOf x = some k) (cause : CallCause)
    (service : ServiceCause) : CallDropped u x k cause (s0.finish (u.dropCall x cause service)) := by
  obtain ⟨ended, drops⟩ := ledger_dropCall call cause service
  have out := AllocSteady.retried (fun y => (serviceSteady_outOf y x).toAlloc) (outOf_dropCall u x cause service)
  constructor
  · rw [ledger_finish, ended]
  · rw [ledger_finish, drops]
  · unfold State.outOf State.sub
    rw [sbc_finish]
    exact out

theorem CallDropped.reads {u t : State} {x : Sub} {k : Fin 4} {cause : CallCause} (h : CallDropped u x k cause t) :
    (t.call k).part.state = .ended ∧ (t.call k).part.cause = cause ∧ (t.call k).part.endTime = u.now ∧
      (t.sub x).drops = satInc 65535 (u.sub x).drops ∧ (t.sub x).serving = none ∧
      ((t.sub x).state = .searching ∨ (t.sub x).state = .lost ∨ (t.sub x).state = .off) := by
  obtain ⟨call, drops, serving, camped, connected, moving⟩ := h
  refine ⟨congrArg CallStand.state call, congrArg CallStand.cause call, congrArg CallStand.endTime call, drops, serving, ?_⟩
  cases state : (t.sub x).state with
  | searching => exact .inl rfl
  | lost => exact .inr (.inl rfl)
  | off => exact .inr (.inr rfl)
  | camped | connected | moving => contradiction

theorem execLinkFailure_of_run {s u : State} {dt : Nat} {x : Sub} {r : Fin 18} (time : u = s.advance dt)
    (working : u.working = true) (connected : (u.sub x).state = .connected) (serving : u.recordIn x .serving = some r)
    (run : 100 ≤ (u.cell x r).failRun) : execLinkFailure dt x s = .next (u.finish (u.dropCall x .linkLost .linkLost)) :=
  block_of_passed (g := fun s => s.failRunAt x .connected connectedFailLimit) time working
    (by simp [State.failRunAt, connected, serving, connectedFailLimit, run])

theorem execSecondFailure_of_deadline {s u : State} {dt : Nat} {x : Sub} (time : u = s.advance dt) (working : u.working = true)
    (reverting : (u.machine x).state = .reverting) (come : (u.machine x).leaveTime + 200000 ≤ u.now) :
    execSecondFailure dt x s = .next (u.finish (u.dropCall x .handoverLost .handoverLost)) :=
  block_of_passed (g := fun s => (s.machine x).state == .reverting && decide ((s.machine x).leaveTime + reversionTime ≤ s.now))
    time working (by simp [reverting, reversionTime, come])

end Sys2Proof.Machine

open Sys2Proof Sys2Proof.Machine

/-- Settles O42: both failures drop the call, by what the drop leaves of the call's record and of its subscription's. -/
theorem lostLinksDropTheCall : Obligations.LostLinksDropTheCall := by
  intro s u dt x k time working call
  refine ⟨fun r connected serving run => ?_, fun reverting come => ?_⟩
  · exact ⟨_, execLinkFailure_of_run time working connected serving run, (callDropped u call .linkLost .linkLost).reads⟩
  · exact ⟨_, execSecondFailure_of_deadline time working reverting come,
      (callDropped u call .handoverLost .handoverLost).reads⟩
end


section
/-! SUPPORT. What requests and offers leave of the ledger: a planning event's offer to a subscription changes it by the report timer
alone (R31, R113 to R115). -/

namespace Sys2Proof.Machine

/-! ### Requests (R37, R41, R44) -/

@[simp] theorem ledger_askDenied (s : State) (n : Occ) (r : Denial) : (s.askDenied n r).ledger = s.ledger :=
  ledger_foldl (fun t x => ledger_ite (ledger_subSet t x) rfl) allSubs s

@[simp] theorem ledger_ask (s : State) (n : Occ) : (s.ask n).1.ledger = s.ledger := by
  have enters : (s.enter n).1.ledger = s.ledger := by
    unfold State.enter
    dsimp only
    split
    · exact ledger_askDenied s _ _
    · exact ledger_deliverDenials _ _
  unfold State.ask
  split
  · exact ledger_askDenied s n _
  · split
    · rfl
    · exact enters

@[simp] theorem ledger_request (s : State) (n : Occ) : (s.request n).ledger = s.ledger := ledger_ask s n

@[simp] theorem ledger_requestSeek (s : State) (o : Occ) (use : Use) (us : List User) :
    (s.requestSeek o use us).ledger = s.ledger := by
  unfold State.requestSeek
  split
  · rfl
  · exact ledger_request s _

/-- What a block writes once its request is answered, whatever the answer. -/
theorem ledger_answered {s t : State} {n : Occ} {a : Answer} (asked : s.ask n = (t, a)) : t.ledger = s.ledger := by
  rw [← ledger_ask s n, asked]

/-! ### A planning event's offers (R31, R32) -/

theorem ledger_offerAckWindow (s : State) (x : Sub) (f : Frame) : (s.offerAckWindow x f).ledger = s.ledger := by
  unfold State.offerAckWindow
  split
  · exact ledger_attemptFailed s x _
  · rfl

theorem ledger_offerSuspended (s : State) (x : Sub) (c : Fin 3) (f : Frame) : (s.offerSuspended x c f).ledger = s.ledger := by
  unfold State.offerSuspended
  split
  · exact ledger_ite ((ledger_expectDown _ _ _ _ _).trans (ledger_upWrite s _ _ _)) rfl
  · rfl

theorem ledger_offerWindow (s : State) (x : Sub) (c : Fin 3) (f : Frame) : (s.offerWindow x c f).ledger = s.ledger := by
  unfold State.offerWindow
  split
  · rfl
  · exact ledger_ite ((ledger_modSbc _ x).trans (ledger_request s _)) (ledger_ite (ledger_modSbc s x) rfl)

theorem ledger_offerBeacon (s : State) (x : Sub) (c : Fin 3) (f : Frame) : (s.offerBeacon x c f).ledger = s.ledger := by
  have window := ledger_offerWindow s x c f
  unfold State.offerBeacon
  split
  · exact ledger_request s _
  · exact ledger_ite (ledger_request s _) rfl
  · exact ledger_ite window (ledger_ite ((ledger_request _ _).trans window) window)
  · rfl

theorem ledger_offerDown (s : State) (x : Sub) (c : Fin 3) (f : Frame) (k : Fin 4) : (s.offerDown x c f k).ledger = s.ledger := by
  unfold State.offerDown
  dsimp only
  split
  · next asked => exact (ledger_expectDown _ _ _ _ _).trans (ledger_answered asked)
  · next asked => exact (ledger_expectDown _ _ _ _ _).trans (ledger_answered asked)

theorem ledger_askUp (s : State) (x : Sub) (c : Fin 3) (f : Frame) (k : Fin 4) (kind : Kind) (b : Uplink) :
    (s.askUp x c f k kind b).ledger = s.ledger := by
  unfold State.askUp
  dsimp only
  split
  · next asked => exact (ledger_upWrite _ _ _ _).trans (ledger_answered asked)
  · next asked => exact (ledger_upWrite _ _ _ _).trans (ledger_answered asked)

theorem ledger_offerUp (s : State) (x : Sub) (c : Fin 3) (f : Frame) (k : Fin 4) : (s.offerUp x c f k).ledger = s.ledger := by
  unfold State.offerUp
  split
  · exact (ledger_askUp _ _ _ _ _ _ _).trans (ledger_modMachine s x)
  · exact ledger_ite ((ledger_askUp _ _ _ _ _ _ _).trans (ledger_modCall s k)) (ledger_askUp s _ _ _ _ _ _)

theorem ledger_offerCallSlot (s : State) (x : Sub) (c : Fin 3) (f : Frame) (i : Nat) :
    (s.offerCallSlot x c f i).ledger = s.ledger := by
  unfold State.offerCallSlot
  split
  · rfl
  · next k _ =>
    exact ledger_ite rfl (ledger_ite (ledger_ite (ledger_request s _) rfl)
      (ledger_ite (ledger_ite (ledger_offerDown s x c f k) (ledger_ite (ledger_offerUp s x c f k) rfl)) rfl))

theorem ledger_offerListen (s : State) (x : Sub) (c : Fin 3) (f : Frame) (i : Nat) :
    (s.offerListen x c f i).ledger = s.ledger := by
  unfold State.offerListen
  split
  · exact ledger_ite (ledger_request s _) rfl
  · rfl

theorem ledger_measureSlot (s : State) (x : Sub) (c : Fin 3) (f : Frame) (i : Nat) (first : Bool) (g : List (Fin 18)) :
    (s.measureSlot x c f i first g).1.ledger = s.ledger := by
  unfold State.measureSlot
  split
  · split
    · next asked => exact (ledger_modCtx _ _ _).trans (ledger_answered asked)
    · next asked => exact ledger_answered asked
  · split
    · rfl
    · split
      · next asked => exact (ledger_modCtx _ _ _).trans ((ledger_modTable _ _ _).trans (ledger_answered asked))
      · next asked => exact ledger_answered asked

theorem ledger_offerCallOpen (s : State) (x : Sub) (c : Fin 3) (f : Frame) : (s.offerCallOpen x c f).ledger = s.ledger := by
  unfold State.offerCallOpen
  split
  · rfl
  · next k _ =>
    exact ledger_ite rfl (ledger_ite ((ledger_request _ _).trans (ledger_modCall s k))
      (ledger_ite ((ledger_request _ _).trans (ledger_modCall s k)) rfl))

theorem ledger_offerDecline (s : State) (x : Sub) (c : Fin 3) (f : Frame) : (s.offerDecline x c f).ledger = s.ledger := by
  unfold State.offerDecline
  split
  · exact (ledger_request _ _).trans (ledger_setDecline s x none)
  · rfl

theorem ledger_offerReceipts (s : State) (x : Sub) (c : Fin 3) (f : Frame) : (s.offerReceipts x c f).ledger = s.ledger :=
  (ledger_foldl (fun t _ => ledger_request t _) _ _).trans (ledger_dropReceipts s x)

theorem ledger_offerSegment (s : State) (x : Sub) (c : Fin 3) (f : Frame) : (s.offerSegment x c f).ledger = s.ledger := by
  unfold State.offerSegment
  split
  · rfl
  · next i _ =>
    refine ledger_ite ?_ rfl
    dsimp only
    split
    · next asked => exact (ledger_modSide _ _ _).trans ((ledger_answered asked).trans (ledger_slotUpd s i false _))
    · next asked => exact (ledger_attemptFailed _ _ _).trans ((ledger_answered asked).trans (ledger_slotUpd s i false _))

theorem ledger_offerTarget (s : State) (x : Sub) (c : Fin 3) (f : Frame) : (s.offerTarget x c f).ledger = s.ledger := by
  unfold State.offerTarget
  dsimp only
  split
  · have asked (l : Frame) (n m : Occ) :
        (((s.modMachine x fun m => { m with arrivals := arrivalsAt l f }).request n).request m).ledger = s.ledger := by
      rw [ledger_request, ledger_request]
      exact ledger_modMachine s x
    exact ledger_ite (ledger_ite ((ledger_request _ _).trans (asked _ _ _)) (asked _ _ _)) rfl
  · rfl

/-- Of an offer to a subscription on its serving context the report timer alone shows in the ledger. -/
theorem ledger_offerServing (s : State) (x : Sub) (c : Fin 3) (f : Frame) :
    (s.offerServing x c f).ledger = (s.offerReportTimer x f).ledger := by
  have timed : (((s.offerReportTimer x f).offerAckWindow x f).offerSuspended x c f).ledger = (s.offerReportTimer x f).ledger :=
    (ledger_offerSuspended _ x c f).trans (ledger_offerAckWindow _ x f)
  unfold State.offerServing
  dsimp only
  generalize ((s.offerReportTimer x f).offerAckWindow x f).offerSuspended x c f = t at timed ⊢
  rw [← timed]
  refine ledger_ite rfl ?_
  rw [ledger_offerSegment, ledger_offerReceipts, ledger_offerDecline, ledger_offerCallOpen]
  refine keeps_foldl_pair (P := fun v => v.ledger = t.ledger) _ (fun i _ p hp => ?_) (ledger_offerBeacon t x c f)
  have slot := (ledger_offerCallSlot _ x c f i).trans ((ledger_offerListen p.1 x c f i).trans hp)
  exact keeps_ite_fst (P := fun v => v.ledger = t.ledger) ((ledger_measureSlot _ _ _ _ _ _ _).trans slot) slot

theorem ledger_offerSub (s : State) (x : Sub) (c : Fin 3) (f : Frame) :
    (s.offerSub x c f).ledger = (if (s.ctx c).hasUser .serving x then s.offerReportTimer x f else s).ledger := by
  have serving : (if (s.ctx c).hasUser .serving x then s.offerServing x c f else s).ledger =
      (if (s.ctx c).hasUser .serving x then s.offerReportTimer x f else s).ledger := by
    split
    · exact ledger_offerServing s x c f
    · rfl
  unfold State.offerSub
  dsimp only
  exact ledger_ite ((ledger_offerTarget _ x c f).trans serving) serving

end Sys2Proof.Machine
end

section
/-! SUPPORT. The report timer: a repeat, or the machine's giving up, at its own command and at a planning event (R96, R113 to R115). -/

namespace Sys2Proof.Machine

/-! ### What the timer finds (R112, R115) -/

/-- The subscription's call, by how the calls stand, is ACTIVE and holds an up slot in force (R112). -/
def standMayReport (calls : Fin 4 → CallStand) (x : Sub) : Bool :=
  match allCalls.find? fun k => radioHolding (calls k).state && (calls k).owner == x with
  | some k => (calls k).state == .active && (calls k).up != 0
  | none => false

theorem mayReport_eq (s : State) (x : Sub) : s.mayReport x = standMayReport s.ledger.calls x := rfl

/-- The report is to be sent again: unheard, sent fewer than three times, and still triggered on its candidate (R115). -/
structure State.repeatsReport (s : State) (x : Sub) : Prop where
  unheard  : (s.machine x).heard = false
  sends    : (s.machine x).sends < 3
  triggers : (s.machine x).stillTriggers = true
  may      : s.mayReport x = true

/-- What a report timer reads stands in the calls and in the machine's course. -/
theorem repeatsReport_of_ledger {s t : State} {x : Sub} (calls : t.ledger.calls = s.ledger.calls)
    (machine : t.ledger.machines x = s.ledger.machines x) (h : s.repeatsReport x) : t.repeatsReport x where
  unheard := (congrArg HoMachine.heard machine).trans h.unheard
  sends := (congrArg HoMachine.sends machine).trans_lt h.sends
  triggers := (congrArg HoMachine.stillTriggers machine).trans h.triggers
  may := by rw [mayReport_eq, calls, ← mayReport_eq, h.may]

theorem latest_of_stillTriggers {m : HoMachine} (h : m.stillTriggers = true) : ∃ t, m.latest = some t := by
  unfold HoMachine.stillTriggers at h
  split at h
  · next latest _ => exact ⟨_, latest⟩
  · cases h

/-! ### What the timer does (R113, R115) -/

/-- The machine once its report has been sent again for the frame `f` (R113). -/
def HoMachine.repeated (m : HoMachine) (f : Frame) : HoMachine :=
  { m with sends := m.sends + 1, expiry := some (plusFrames f reportFrames) }

theorem reportTimer_of_repeats {s : State} {x : Sub} (h : s.repeatsReport x) (f : Frame) :
    ∃ l, s.reportTimer x f = s.modMachine x fun m => { m.repeated f with claims := m.claims ++ l } := by
  obtain ⟨t, latest⟩ := latest_of_stillTriggers h.triggers
  refine ⟨[(f, t.report)], ?_⟩
  unfold State.reportTimer
  dsimp only
  rw [if_pos ⟨h.unheard, h.sends, h.triggers, h.may⟩, latest]
  rfl

theorem reportTimer_of_given_up {s : State} {x : Sub} (h : ¬ s.repeatsReport x) (f : Frame) : s.reportTimer x f = s.giveUp x :=
  if_neg fun ⟨unheard, sends, triggers, may⟩ => h ⟨unheard, sends, triggers, may⟩

theorem machine_giveUp (s : State) (x : Sub) : (s.giveUp x).machine x = { HoMachine.reset with state := .watch } :=
  State.machine_modMachine_same _ x _

theorem cell_giveUp {s : State} {x : Sub} {k : Key} {r : Fin 18} (candidate : (s.machine x).candidate = some (k, r)) :
    (s.giveUp x).cell x r = { s.cell x r with
      role := if (s.cell x r).role = CellRole.target then .neighbour else (s.cell x r).role, dwell := 0,
      quietUntil := s.now + quietReported, change := (s.cell x r).change + 1 } := by
  have reset (t : State) : (t.resetMachine x .watch).cell x r = t.cell x r := rfl
  unfold State.giveUp
  rw [candidate, reset]
  exact State.cell_cellUpd_same s x r _

theorem tmu_reportTimer (s : State) (x : Sub) (f : Frame) : (s.reportTimer x f).tmu = s.tmu := by
  by_cases again : s.repeatsReport x
  · obtain ⟨l, repeats⟩ := reportTimer_of_repeats again f
    rw [repeats]
    rfl
  · rw [reportTimer_of_given_up again]
    unfold State.giveUp
    split <;> rfl

/-- One subscription's timer leaves the calls and the other's machine. -/
theorem reportTimer_other (s : State) {x y : Sub} (other : x ≠ y) (f : Frame) :
    (s.reportTimer y f).ledger.calls = s.ledger.calls ∧ (s.reportTimer y f).machine x = s.machine x := by
  by_cases again : s.repeatsReport y
  · obtain ⟨l, repeats⟩ := reportTimer_of_repeats again f
    rw [repeats]
    exact ⟨rfl, State.machine_modMachine_other s other _⟩
  · rw [reportTimer_of_given_up again]
    unfold State.giveUp
    split
    · exact ⟨rfl, State.machine_modMachine_other _ other _⟩
    · exact ⟨rfl, State.machine_modMachine_other _ other _⟩

/-! ### The timer at its own command (R115) -/

theorem execReportTimerExpiry_of_reached {s u : State} {dt : Nat} {x : Sub} {f : Frame} (time : u = s.advance dt)
    (working : u.working = true) (marks : u.marksOk = true) (reported : (u.machine x).state = .reported)
    (expiry : (u.machine x).expiry = some f) (reached : u.servingReached x f = true) :
    ∃ t, exec (.reportTimerExpiry dt x) s = .next t ∧ (∀ y, t.machine y = (u.reportTimer x (u.nextFrame x)).machine y) ∧
      ∀ y r, t.cell y r = (u.reportTimer x (u.nextFrame x)).cell y r := by
  have unfreed : (u.reportTimer x (u.nextFrame x)).tmu.freed = false := by
    rw [tmu_reportTimer]
    exact (unfreed_of_marksOk marks).1
  have runs : execReportTimerExpiry dt x s = .next (u.finish (u.reportTimer x (u.nextFrame x))) :=
    block_of_passed (g := fun s => (s.machine x).state == .reported &&
      (match (s.machine x).expiry with | some f => s.servingReached x f | none => false)) time working
      (by rw [reported, expiry]; exact reached)
  refine ⟨_, runs, fun y => ?_, fun y r => ?_⟩
  · unfold State.machine
    rw [mbu_finish, retried_of_unfreed unfreed]
  · unfold State.cell
    rw [cmu_finish, retried_of_unfreed unfreed]

/-! ### The timer at a planning event (R114, R115) -/

theorem offerSub_other (s : State) {x y : Sub} (other : x ≠ y) (c : Fin 3) (f : Frame) :
    (s.offerSub y c f).ledger.calls = s.ledger.calls ∧ (s.offerSub y c f).ledger.machines x = s.ledger.machines x := by
  obtain ⟨calls, machine⟩ := reportTimer_other s other f
  rw [ledger_offerSub]
  unfold State.offerReportTimer
  split
  · split
    · exact ⟨calls, congrArg HoMachine.course machine⟩
    · exact ⟨rfl, rfl⟩
  · exact ⟨rfl, rfl⟩

/-- An offer of frame `f` on the serving context of a subscription whose report timer expires there, and repeats. -/
theorem offerSub_repeats {s : State} {x : Sub} {c : Fin 3} {f : Frame} (serving : (s.ctx c).hasUser .serving x = true)
    (expires : (s.machine x).expiresAt f = true) (again : s.repeatsReport x) :
    (s.offerSub x c f).ledger.machines x = (s.ledger.machines x).repeated f := by
  obtain ⟨l, repeats⟩ := reportTimer_of_repeats again f
  rw [ledger_offerSub, if_pos serving]
  unfold State.offerReportTimer
  rw [if_pos expires, repeats]
  exact congrArg HoMachine.course (State.machine_modMachine_same s x _)

theorem handStaged_of_none {s : State} {c : Fin 3} (none : (s.ctx c).staged = none) (f : Frame) : s.handStaged c f = s := by
  unfold State.handStaged
  rw [none]

theorem ledger_offer_repeats {s : State} {x : Sub} {c : Fin 3} {f : Frame} (marks : s.marksOk = true)
    (deferred : s.tmu.deferred = []) (staged : (s.ctx c).staged = none) (serving : s.servingCtx x = some c)
    (expires : (s.machine x).expiresAt f = true) (again : s.repeatsReport x) :
    (s.offer c f).ledger.machines x = (s.ledger.machines x).repeated f := by
  have O := offerSteady_timedAs c ((s.ctx c).planned f)
  have user : (s.ctx c).hasUser .serving x = true := List.find?_some (p := fun c => (s.ctx c).hasUser .serving x) serving
  have stays {t : State} (timed : t.timedAs c ((s.ctx c).planned f)) : (t.ctx c).hasUser .serving x = true := by
    rw [timed.1]
    exact user
  rw [offer_of_none c f deferred, handStaged_of_none (by rw [State.ctx_modCtx_same]; exact staged)]
  have timed : ((s.modCtx c fun t => t.planned f).offerSeek c f).timedAs c ((s.ctx c).planned f) :=
    O.requestSeek rfl ⟨by rw [State.ctx_modCtx_same], (unfreed_of_marksOk marks).1, deferred⟩
  have ledger : ((s.modCtx c fun t => t.planned f).offerSeek c f).ledger = s.ledger := ledger_requestSeek _ _ _ _
  generalize (s.modCtx c fun t => t.planned f).offerSeek c f = t at timed ledger ⊢
  have repeats {v : State} (timed : v.timedAs c ((s.ctx c).planned f)) (calls : v.ledger.calls = s.ledger.calls)
      (machine : v.ledger.machines x = s.ledger.machines x) :
      (v.offerSub x c f).ledger.machines x = (s.ledger.machines x).repeated f := by
    rw [offerSub_repeats (stays timed) ((congrArg (·.expiresAt f) machine).trans expires)
      (repeatsReport_of_ledger calls machine again), machine]
  cases x with
  | a =>
    rw [(offerSub_other _ (x := .a) (y := .b) (by decide) c f).2]
    exact repeats timed (by rw [ledger]) (by rw [ledger])
  | b =>
    obtain ⟨calls, machine⟩ := offerSub_other t (x := .b) (y := .a) (by decide) c f
    exact repeats (O.offerSub timed) (calls.trans (by rw [ledger])) (machine.trans (by rw [ledger]))

end Sys2Proof.Machine

open Sys2Proof Sys2Proof.Machine

/-- Settles O49: the timer's two ways, at its own command; and at a planning event the repeat alone, which stands in the ledger
through whatever else that event requests and writes. -/
theorem reportTimerRepeatsOrGivesUp : Obligations.ReportTimerRepeatsOrGivesUp := by
  refine ⟨fun s u dt x f time working marks reported expiry reached => ?_,
    fun s u dt x c e f time working marks deferred due serving staged reported expiry come unheard sends triggers may => ?_⟩
  · obtain ⟨t, runs, machine, cell⟩ := execReportTimerExpiry_of_reached time working marks reported expiry reached
    refine ⟨t, runs, fun unheard sends triggers may => ?_, fun past => ?_⟩
    · obtain ⟨l, repeats⟩ := reportTimer_of_repeats ⟨unheard, sends, triggers, may⟩ (u.nextFrame x)
      rw [machine, repeats, State.machine_modMachine_same]
      exact ⟨reported, rfl, rfl, rfl⟩
    · have gives := reportTimer_of_given_up (f := u.nextFrame x) (s := u) (x := x) fun again => by
        obtain ⟨unheard, sends, triggers, may⟩ := again
        simp [unheard, sends.not_ge, triggers, may] at past
      refine ⟨by rw [machine, gives, machine_giveUp], fun k r candidate => ?_⟩
      rw [cell, gives, cell_giveUp candidate]
      exact ⟨rfl, rfl, rfl⟩
  · have expires : (u.machine x).expiresAt f = true := by
      unfold HoMachine.expiresAt
      rw [reported, expiry]
      exact come
    have repeated := ledger_offer_repeats marks deferred staged serving expires ⟨unheard, sends, triggers, may⟩
    rw [← ledger_finish u] at repeated
    have candidate := congrArg HoMachine.candidate repeated
    exact ⟨_, execPlanningEvent_of_due time working due, (congrArg HoMachine.state repeated).trans reported,
      congrArg HoMachine.sends repeated, candidate, congrArg HoMachine.expiry repeated⟩
end


section
/-! SUPPORT. START: the tables of cell records initialised and then taken from the host halves, and the blocks' other start values
(R77, R80, R192). -/

namespace Sys2Proof.Machine

/-! ### A cell record at START (R77, R80) -/

/-- A record with no sample, no dwell and no mark; a guest out of use; a host record without a lock, with no probe pending and
both taken stamps those of its host half. -/
structure CellRec.starts (c : CellRec) (r : Fin 18) (h : CellSettings) : Prop where
  cleared : c.init c.key c.role = c
  guest   : 16 ≤ r.val → c.role = .none
  host    : r.val < 16 → c.locked = false ∧ c.weakTaken = h.weak ∧ c.probeTaken = h.probe ∧ c.probe = none

/-- Initialised again, as its host half has it in use or not, a host record still starts. -/
theorem CellRec.starts.use {c : CellRec} {r : Fin 18} {h : CellSettings} (starts : c.starts r h) (low : r.val < 16)
    (n : BitVec 32) :
    ({ c.init h.key (if h.inUse then .neighbour else .none) with change := n } : CellRec).starts r h where
  cleared := rfl
  guest high := absurd low high.not_gt
  host low := by
    refine ⟨?_, (starts.host low).2⟩
    cases use : h.inUse <;> rfl

theorem CellRec.starts.post {c : CellRec} {r : Fin 18} {h : CellSettings} (starts : c.starts r h) (low : r.val < 16) :
    ({ c.probePost h.probe with offset := h.offset } : CellRec).starts r h := by
  obtain ⟨cleared, guest, host⟩ := starts
  obtain ⟨-, -, probe, none⟩ := host low
  unfold CellRec.probePost
  rw [if_pos ⟨probe.symm, none⟩]
  exact ⟨congrArg (fun c => { c with offset := h.offset }) cleared, guest, host⟩

theorem role_of_unlocked {c : CellRec} (unlocked : c.locked = false) : c.role = if c.used then .neighbour else .none := by
  unfold CellRec.locked at unlocked
  unfold CellRec.used
  cases role : c.role with
  | none | neighbour => rfl
  | serving | target => simp [role] at unlocked

/-! ### The writes of cell records -/

/-- `t` is `s` but for the cell tables and the PENDING bits. -/
def TablesWritten (s t : State) : Prop := ∃ v p, t = { s with cmu := v, exm := { s.exm with attn := p } }

theorem TablesWritten.refl (s : State) : TablesWritten s s := ⟨s.cmu, s.exm.attn, rfl⟩

theorem TablesWritten.modTable {s t : State} (h : TablesWritten s t) (x : Sub) (f : CellTable → CellTable) :
    TablesWritten s (t.modTable x f) := by
  obtain ⟨v, p, rfl⟩ := h
  exact ⟨_, p, rfl⟩

theorem TablesWritten.modCell {s t : State} (h : TablesWritten s t) (x : Sub) (r : Fin 18) (f : CellRec → CellRec) :
    TablesWritten s (t.modCell x r f) := h.modTable x _

theorem TablesWritten.cellUpd {s t : State} (h : TablesWritten s t) (x : Sub) (r : Fin 18) (f : CellRec → CellRec) :
    TablesWritten s (t.cellUpd x r f) := by
  obtain ⟨v, p, rfl⟩ := h
  exact ⟨_, _, rfl⟩

theorem TablesWritten.mem {s t : State} (h : TablesWritten s t) : t.exm.mem = s.exm.mem := by
  obtain ⟨v, p, rfl⟩ := h
  rfl

/-- A record starts from its own host half. -/
def State.recordStarts (x : Sub) (r : Fin 18) (t : State) : Prop := (t.cell x r).starts r (t.readCell x r)

theorem recordStarts_of_table {s t : State} {x : Sub} {r : Fin 18} (table : t.cmu.get x = s.cmu.get x)
    (mem : t.exm.mem = s.exm.mem) (h : s.recordStarts x r) : t.recordStarts x r := by
  unfold State.recordStarts State.cell
  rw [table, readCell_of_mem mem]
  exact h

/-- A write that has its record start leaves the others starting. -/
theorem recordStarts_modCell {s : State} {x : Sub} {r : Fin 18} {f : CellRec → CellRec}
    (writes : (f (s.cell x r)).starts r (s.readCell x r)) :
    (s.modCell x r f).recordStarts x r ∧ ∀ y q, s.recordStarts y q → (s.modCell x r f).recordStarts y q := by
  have own : (s.modCell x r f).recordStarts x r := by
    unfold State.recordStarts
    rw [State.cell_modCell_same]
    exact writes
  refine ⟨own, fun y q starts => ?_⟩
  by_cases sub : y = x
  · subst sub
    by_cases here : q = r
    · exact here ▸ own
    · unfold State.recordStarts
      rw [State.cell_modCell_other s y here]
      exact starts
  · unfold State.recordStarts
    rw [State.cell_modCell_sub s sub]
    exact starts

theorem recordStarts_cellUpd {s : State} {x : Sub} {r : Fin 18} {f : CellRec → CellRec}
    (writes : ({ f (s.cell x r) with change := (s.cell x r).change + 1 } : CellRec).starts r (s.readCell x r)) :
    (s.cellUpd x r f).recordStarts x r ∧ ∀ y q, s.recordStarts y q → (s.cellUpd x r f).recordStarts y q :=
  recordStarts_modCell (f := fun c => { f c with change := c.change + 1 }) writes

/-! ### A table initialised (R77) -/

/-- A host record's start initialisation. -/
def State.initHost (s : State) (x : Sub) (r : Fin 18) : State :=
  s.cellUpd x r fun c => { c.init Key.zero .none with
    weakTaken := (s.readCell x r).weak, probeTaken := (s.readCell x r).probe, probe := none, offset := 0 }

def State.initGuest (s : State) (x : Sub) (r : Fin 18) : State := s.cellUpd x r fun c => c.init Key.zero .none

theorem initTable_eq (s : State) (x : Sub) : s.initTable x =
    (guestRecs.foldl (fun s r => s.initGuest x r) (hostRecs.foldl (fun s r => s.initHost x r) s)).modTable x
      fun t => { t with pointer := 0 } := rfl

theorem mem_guestRecs (r : Fin 18) : r ∈ guestRecs ↔ 16 ≤ r.val := by
  revert r
  decide

theorem recordStarts_initHost (s : State) (x : Sub) (r : Fin 18) :
    (s.initHost x r).recordStarts x r ∧ ∀ y q, s.recordStarts y q → (s.initHost x r).recordStarts y q :=
  recordStarts_cellUpd ⟨rfl, fun _ => rfl, fun _ => ⟨rfl, rfl, rfl, rfl⟩⟩

theorem recordStarts_initGuest (s : State) (x : Sub) {r : Fin 18} (guest : 16 ≤ r.val) :
    (s.initGuest x r).recordStarts x r ∧ ∀ y q, s.recordStarts y q → (s.initGuest x r).recordStarts y q :=
  recordStarts_cellUpd ⟨rfl, fun _ => rfl, fun low => absurd guest low.not_ge⟩

theorem recordStarts_initTable (s : State) (x : Sub) (r : Fin 18) : (s.initTable x).recordStarts x r := by
  have reset (t : State) (h : t.recordStarts x r) : (t.modTable x fun t => { t with pointer := 0 }).recordStarts x r := by
    unfold State.recordStarts State.cell State.modTable
    dsimp only
    rw [Pair.get_set_same]
    exact h
  rw [initTable_eq]
  refine reset _ ?_
  rcases Nat.lt_or_ge r.val 16 with host | guest
  · have started := settles_foldl (S := State.recordStarts x) hostRecs (fun q _ t => (recordStarts_initHost t x q).1)
      (fun q _ p t => (recordStarts_initHost t x q).2 x p) s r ((mem_hostRecs r).2 host)
    exact keeps_foldl guestRecs (fun q hq t h => (recordStarts_initGuest t x ((mem_guestRecs q).1 hq)).2 x r h) started
  · exact settles_foldl (S := State.recordStarts x) guestRecs
      (fun q hq t => (recordStarts_initGuest t x ((mem_guestRecs q).1 hq)).1)
      (fun q hq p t => (recordStarts_initGuest t x ((mem_guestRecs q).1 hq)).2 x p) _ r ((mem_guestRecs r).2 guest)

theorem tablesWritten_initTable (s : State) (x : Sub) : TablesWritten s (s.initTable x) :=
  initTable_eq s x ▸ .modTable (keeps_foldl guestRecs (fun _ _ _ h => h.cellUpd x _ _)
    (keeps_foldl hostRecs (fun _ _ _ h => h.cellUpd x _ _) (.refl s))) x _

theorem cmu_initTable_other (s : State) {x y : Sub} (other : y ≠ x) : (s.initTable x).cmu.get y = s.cmu.get y := by
  have written (t : State) (r : Fin 18) (f : CellRec → CellRec) (h : t.cmu.get y = s.cmu.get y) :
      (t.cellUpd x r f).cmu.get y = s.cmu.get y := (Pair.get_set_other _ other _).trans h
  refine (Pair.get_set_other _ other _).trans ?_
  exact keeps_foldl (P := fun t => t.cmu.get y = s.cmu.get y) guestRecs (fun r _ t => written t r _)
    (keeps_foldl (P := fun t => t.cmu.get y = s.cmu.get y) hostRecs (fun r _ t => written t r _) rfl)

theorem pointer_initTable (s : State) (x : Sub) : ((s.initTable x).cmu.get x).pointer = 0 := by
  unfold State.initTable State.modTable
  dsimp only
  rw [Pair.get_set_same]

/-! ### The tables taken over their start values (R80, R83) -/

/-- The tables from `s` on at START: every record starts, and nothing but the records has changed. -/
structure TablesStarting (s t : State) : Prop where
  written : TablesWritten s t
  records : ∀ x r, t.recordStarts x r
  pointer : ∀ x, (t.cmu.get x).pointer = (s.cmu.get x).pointer

theorem TablesStarting.modCell {s t : State} (h : TablesStarting s t) {x : Sub} {r : Fin 18} {f : CellRec → CellRec}
    (writes : (f (t.cell x r)).starts r (t.readCell x r)) : TablesStarting s (t.modCell x r f) where
  written := h.written.modCell x r f
  records y q := (recordStarts_modCell writes).2 y q (h.records y q)
  pointer y := by
    rw [← h.pointer y]
    by_cases here : y = x
    · subst here
      unfold State.modCell State.modTable
      dsimp only
      rw [Pair.get_set_same]
    · exact congrArg CellTable.pointer (Pair.get_set_other _ here _)

theorem TablesStarting.cellUpd {s t : State} (h : TablesStarting s t) {x : Sub} {r : Fin 18} {f : CellRec → CellRec}
    (writes : ({ f (t.cell x r) with change := (t.cell x r).change + 1 } : CellRec).starts r (t.readCell x r)) :
    TablesStarting s (t.cellUpd x r f) where
  written := h.written.cellUpd x r f
  records y q := (recordStarts_cellUpd writes).2 y q (h.records y q)
  pointer := (h.modCell (f := fun c => { f c with change := c.change + 1 }) writes).pointer

theorem takeUse_of_unlocked {s : State} {x : Sub} {r : Fin 18} (unlocked : (s.cell x r).locked = false) (h : CellSettings) :
    s.takeUse x r h = if changesUse (s.cell x r) h = true then
      s.cellUpd x r fun c => c.init h.key (if h.inUse then .neighbour else .none) else s := by
  unfold State.takeUse
  simp [unlocked]

/-- Stamps that stand as taken change nothing, and no probe is pending to be settled. -/
theorem takeStamps_of_starts {s : State} {x : Sub} {r : Fin 18} {h : CellSettings} (starts : (s.cell x r).starts r h)
    (low : r.val < 16) : s.takeStamps x r h = s.modCell x r fun c => { c.probePost h.probe with offset := h.offset } := by
  obtain ⟨-, weak, -, -⟩ := starts.host low
  obtain ⟨-, -, -, none⟩ := (starts.post low).host low
  have cleared : s.cellSet x r (fun c => c.weakClear h.weak) = s := if_pos (if_pos weak.symm)
  have settled : (s.modCell x r fun c => { c.probePost h.probe with offset := h.offset }).completeProbe x r Option.none =
      s.modCell x r fun c => { c.probePost h.probe with offset := h.offset } := by
    unfold State.completeProbe
    rw [State.cell_modCell_same, none]
  unfold State.takeStamps
  dsimp only
  rw [cleared, settled, ite_self]

theorem TablesStarting.takeHostRecord {s t : State} (h : TablesStarting s t) (x : Sub) {r : Fin 18} (low : r.val < 16) :
    TablesStarting s (t.takeHostRecord x r) := by
  have used : TablesStarting s (t.takeUse x r (t.readCell x r)) := by
    rw [takeUse_of_unlocked ((h.records x r).host low).1]
    exact keeps_ite (h.cellUpd ((h.records x r).use low _)) h
  have reads : (t.takeUse x r (t.readCell x r)).readCell x r = t.readCell x r :=
    congrFun (congrFun (readCell_of_mem (used.written.mem.trans h.written.mem.symm)) x) r
  have starts := used.records x r
  unfold State.recordStarts at starts
  rw [reads] at starts
  have posted := starts.post low
  unfold State.takeHostRecord
  dsimp only
  rw [takeStamps_of_starts starts low]
  generalize t.takeUse x r (t.readCell x r) = v at used reads posted ⊢
  rw [← reads] at posted ⊢
  exact used.modCell posted

theorem foldGuest_of_starts {s : State} {x : Sub} {g : Fin 18} (starts : s.recordStarts x g) (guest : 16 ≤ g.val) :
    s.foldGuest x g = s := by
  unfold State.foldGuest
  exact if_neg (by simp [CellRec.used, starts.guest guest])

theorem tablesStarting_takeTables {s : State} (starts : ∀ x r, s.recordStarts x r) : TablesStarting s s.takeTables := by
  have taken : TablesStarting s
      (allSubs.foldl (fun s x => hostRecs.foldl (fun s r => s.takeHostRecord x r) s) s) :=
    keeps_foldl allSubs (fun x _ _ h => keeps_foldl hostRecs (fun r hr _ h => h.takeHostRecord x ((mem_hostRecs r).1 hr)) h)
      ⟨.refl s, starts, fun _ => rfl⟩
  have folded (x : Sub) (g : Fin 18) (hg : g ∈ guestRecs) (t : State) (h : TablesStarting s t) :
      TablesStarting s (t.foldGuest x g) := by
    rwa [foldGuest_of_starts (h.records x g) ((mem_guestRecs g).1 hg)]
  unfold State.takeTables
  exact keeps_foldl allSubs (fun x _ _ h => keeps_foldl guestRecs (folded x) h) taken

/-! ### The blocks started (R192) -/

/-- The subscription controller's record of a subscription at START. -/
def SbcX.started (h : SubSettings) (n : BitVec 32) : SbcX :=
  { SbcX.reset with part := { SubRec.reset with change := n }, set := h }

/-- What a subscription's start initialisation does before its table. -/
def State.startRecord (s : State) (x : Sub) : State :=
  ((s.subUpd x fun r => { SubRec.reset with change := r.change }).modSbc x fun b =>
    { SbcX.reset with part := b.part, set := s.readSettings x }).modMbu x fun _ => MbuX.reset

theorem startSub_eq (s : State) (x : Sub) :
    s.startSub x = (((s.startRecord x).initTable x).modSide x fun _ => SendSide.reset).setDecline x none := rfl

theorem startSub_frame (s : State) (x : Sub) : ∃ v p n, s.startSub x = { s with
    sbc := s.sbc.set x (SbcX.started (s.readSettings x) n)
    cmu := v
    mbu := s.mbu.set x MbuX.reset
    clu := { s.clu with decline := s.clu.decline.set x none }
    txu := { s.txu with side := s.txu.side.set x SendSide.reset }
    exm := { s.exm with attn := p } } := by
  obtain ⟨v, p, table⟩ := tablesWritten_initTable (s.startRecord x) x
  refine ⟨v, p, (s.sub x).change + 1, ?_⟩
  rw [startSub_eq, table]
  cases x <;> rfl

/-- A subscription's start initialisation settles its own table and leaves the other's. -/
theorem startSub_table (s : State) (x : Sub) :
    ((∀ r, (s.startSub x).recordStarts x r) ∧ ((s.startSub x).cmu.get x).pointer = 0) ∧
      ∀ y, y ≠ x → (s.startSub x).cmu.get y = s.cmu.get y := by
  have after (t : State) : ((t.modSide x fun _ => SendSide.reset).setDecline x none).cmu = t.cmu ∧
      ((t.modSide x fun _ => SendSide.reset).setDecline x none).exm.mem = t.exm.mem := ⟨rfl, rfl⟩
  obtain ⟨cmu, mem⟩ := after ((s.startRecord x).initTable x)
  rw [← startSub_eq] at cmu mem
  refine ⟨⟨fun r => recordStarts_of_table (congrArg (·.get x) cmu) mem (recordStarts_initTable _ x r), ?_⟩, fun y other => ?_⟩
  · rw [cmu, pointer_initTable]
  · rw [cmu, cmu_initTable_other _ other]
    rfl

/-- The start initialisation of the calls, the requests and the texts. -/
def State.startRest (s : State) : State :=
  { s with clu := { s.clu with nextRef := ⟨0, 0⟩ }, tmu := { s.tmu with deferred := [] },
           txu := { s.txu with reasm := Vector.replicate 4 Reasm.idle, receipts := [] } }

theorem startRest_table (s : State) (x : Sub) : s.startRest.cmu.get x = s.cmu.get x ∧ s.startRest.exm.mem = s.exm.mem :=
  ⟨rfl, rfl⟩

/-- Both subscriptions' start initialisations, and the calls', the texts' and the requests' own (R192). -/
def State.startBoth (s : State) : State := ((s.startSub .a).startSub .b).startRest

theorem startBlocks_eq (s : State) : s.startBlocks = (s.startBoth.takeTables.scanClear .subs).scanClear .cells := rfl

/-- What START leaves beside the cell tables: every block's start values, and what no block holds but for the PENDING bits. -/
theorem startBoth_frame (s : State) : ∃ v p n m q, s.startBoth = { s with
    sbc := ⟨SbcX.started (s.readSettings .a) n, SbcX.started (s.readSettings .b) m⟩
    cmu := v
    mbu := ⟨MbuX.reset, MbuX.reset⟩
    clu := { s.clu with decline := q, nextRef := ⟨0, 0⟩ }
    tmu := { s.tmu with deferred := [] }
    txu := { s.txu with side := ⟨SendSide.reset, SendSide.reset⟩, reasm := Vector.replicate 4 Reasm.idle, receipts := [] }
    exm := { s.exm with attn := p } } := by
  obtain ⟨v, p, n, first⟩ := startSub_frame s .a
  obtain ⟨w, q, m, second⟩ := startSub_frame (s.startSub .a) .b
  refine ⟨w, q, n, m, ⟨none, none⟩, ?_⟩
  unfold State.startBoth
  rw [second, first]
  rfl

theorem startSubs_tables (s : State) (x : Sub) :
    (∀ r, ((s.startSub .a).startSub .b).recordStarts x r) ∧ (((s.startSub .a).startSub .b).cmu.get x).pointer = 0 := by
  obtain ⟨b, kept⟩ := startSub_table (s.startSub .a) .b
  obtain ⟨⟨records, pointer⟩, -⟩ := startSub_table s .a
  cases x with
  | a =>
    obtain ⟨v, p, n, second⟩ := startSub_frame (s.startSub .a) .b
    have mem : ((s.startSub .a).startSub .b).exm.mem = (s.startSub .a).exm.mem := by rw [second]
    have table := kept .a (by decide)
    exact ⟨fun r => recordStarts_of_table table mem (records r), (congrArg CellTable.pointer table).trans pointer⟩
  | b => exact b

theorem startBoth_tables (s : State) (x : Sub) : (∀ r, s.startBoth.recordStarts x r) ∧ (s.startBoth.cmu.get x).pointer = 0 := by
  obtain ⟨records, pointer⟩ := startSubs_tables s x
  obtain ⟨table, mem⟩ := startRest_table ((s.startSub .a).startSub .b) x
  unfold State.startBoth
  exact ⟨fun r => recordStarts_of_table table mem (records r), (congrArg CellTable.pointer table).trans pointer⟩

/-! ### START as a whole (R179, R180, R192) -/

/-- The part after START: the blocks' start values, the settings of the setup record, and tables taken from the host halves. -/
theorem startPart_frame {u : State} (version : u.setupVersion = 1) : ∃ p n m q, u.startPart = { u with
    sbc := ⟨SbcX.started (u.readSettings .a) n, SbcX.started (u.readSettings .b) m⟩
    cmu := u.startBoth.takeTables.cmu
    mbu := ⟨MbuX.reset, MbuX.reset⟩
    clu := { u.clu with decline := q, nextRef := ⟨0, 0⟩ }
    tmu := { u.tmu with deferred := [] }
    txu := { u.txu with side := ⟨SendSide.reset, SendSide.reset⟩, reasm := Vector.replicate 4 Reasm.idle, receipts := [] }
    pwc := { u.pwc with permit := u.setupPermit, maxSleep := u.setupMaxSleep, timer := 0, target := 0 }
    exm := { u.exm with attn := p, scan := u.exm.scan &&& ~~~ (areaMask .subs) &&& ~~~ (areaMask .cells), run := .starting,
                        badSetup := false } } := by
  obtain ⟨v, p, n, m, q, both⟩ := startBoth_frame u
  obtain ⟨w, p, tables⟩ := (tablesStarting_takeTables fun x => (startBoth_tables u x).1).written
  refine ⟨p, n, m, q, ?_⟩
  unfold State.startPart
  rw [if_pos version, startBlocks_eq, tables, both]
  rfl

/-- A host record after START has the use, the key and the offset that its host half says, and its stamps. -/
theorem cell_started_host (u : State) (x : Sub) {r : Fin 18} (low : r.val < 16) :
    (u.startBoth.takeTables.cell x r).role = (if (u.readCell x r).inUse then CellRole.neighbour else CellRole.none) ∧
      ((u.readCell x r).inUse = true → (u.startBoth.takeTables.cell x r).key = (u.readCell x r).key) ∧
      (u.startBoth.takeTables.cell x r).offset = (u.readCell x r).offset ∧
      (u.startBoth.takeTables.cell x r).weakTaken = (u.readCell x r).weak ∧
      (u.startBoth.takeTables.cell x r).probeTaken = (u.readCell x r).probe ∧
      (u.startBoth.takeTables.cell x r).probe = none := by
  have tables := tablesStarting_takeTables fun x => (startBoth_tables u x).1
  have mem : u.startBoth.takeTables.exm.mem = u.exm.mem := by
    obtain ⟨v, p, n, m, q, both⟩ := startBoth_frame u
    rw [tables.written.mem, both]
  obtain ⟨unlocked, weak, probe, none⟩ := (tables.records x r).host low
  obtain ⟨used, offset, key⟩ := cellFollows_takeTables u.startBoth x r low
  rw [readCell_of_mem mem] at weak probe used offset key
  exact ⟨(role_of_unlocked unlocked).trans (congrArg (if · = true then CellRole.neighbour else .none) used), key, offset, weak,
    probe, none⟩

/-- No record has a sample, a dwell or a mark after START, and no guest is in use. -/
theorem cell_started (u : State) (x : Sub) (r : Fin 18) :
    (u.startBoth.takeTables.cell x r).init (u.startBoth.takeTables.cell x r).key (u.startBoth.takeTables.cell x r).role =
        u.startBoth.takeTables.cell x r ∧
      (16 ≤ r.val → (u.startBoth.takeTables.cell x r).role = .none) := by
  obtain ⟨cleared, guest, -⟩ := (tablesStarting_takeTables fun x => (startBoth_tables u x).1).records x r
  exact ⟨cleared, guest⟩

theorem pointer_started (u : State) (x : Sub) : (u.startBoth.takeTables.cmu.get x).pointer = 0 :=
  ((tablesStarting_takeTables fun x => (startBoth_tables u x).1).pointer x).trans (startBoth_tables u x).2

theorem scan_started (v : BitVec 9) : v &&& ~~~ (areaMask .subs) &&& ~~~ (areaMask .cells) &&& areaMask .subs = 0 ∧
    v &&& ~~~ (areaMask .subs) &&& ~~~ (areaMask .cells) &&& areaMask .cells = 0 := by
  revert v
  decide

theorem setup_of_mem {s t : State} (mem : t.exm.mem = s.exm.mem) : t.setupVersion = s.setupVersion ∧
    t.setupPermit = s.setupPermit ∧ t.setupMaxSleep = s.setupMaxSleep := by
  unfold State.setupVersion State.setupPermit State.setupMaxSleep
  rw [hostWord_of_mem mem]
  exact ⟨rfl, rfl, rfl⟩

theorem execStart_of_stopped {s : State} (dt : Nat) (alive : s.pins.resetHeld = false) (stopped : s.exm.run = .stopped) :
    execStart dt s = .next (s.advance dt).startPart :=
  direct_of_due (by rw [alive_advance dt alive, exm_advance, stopped]; rfl)

end Sys2Proof.Machine

open Sys2Proof Sys2Proof.Machine

/-- Settles O14: the setup record's version is read first; then the blocks' start values are what the frame says, and the records
are those of the tables initialised and taken. -/
theorem startTakesSetupRecord : Obligations.StartTakesSetupRecord := by
  intro s dt alive stopped
  have run := execStart_of_stopped dt alive stopped
  have mem : (s.advance dt).exm.mem = s.exm.mem := by rw [exm_advance]
  obtain ⟨version, permit, sleep⟩ := setup_of_mem mem
  refine ⟨fun other => run.trans (congrArg _ (if_neg (version ▸ other))), fun one => ⟨_, run, ?_⟩⟩
  have drift := drift_advance dt s
  have exm := exm_advance dt s
  rw [← permit, ← sleep, ← drift, ← exm, ← readSettings_of_mem mem, ← readCell_of_mem mem]
  rw [← version] at one
  clear run version permit sleep drift exm mem alive stopped
  generalize s.advance dt = u at one ⊢
  obtain ⟨p, n, m, q, started⟩ := startPart_frame one
  have tables : u.startPart.cmu = u.startBoth.takeTables.cmu := by rw [started]
  have cells (x : Sub) (r : Fin 18) : u.startPart.cell x r = u.startBoth.takeTables.cell x r := by
    unfold State.cell
    rw [tables]
  obtain ⟨unsetSubs, unsetCells⟩ := scan_started u.exm.scan
  simp only [cells, tables]
  rw [started]
  refine ⟨rfl, rfl, rfl, rfl, rfl, rfl, rfl, rfl, rfl, bne_eq_false_iff_eq.2 unsetSubs, bne_eq_false_iff_eq.2 unsetCells, ?_,
    rfl, fun r => ?_, fun x r low => cell_started_host u x low, fun x r => ?_, pointer_started u⟩
  · rintro (_ | _)
    · exact ⟨rfl, rfl, rfl, rfl, rfl, rfl⟩
    · exact ⟨rfl, rfl, rfl, rfl, rfl, rfl⟩
  · simp
  · obtain ⟨cleared, guest⟩ := cell_started u x r
    rw [← cleared]
    exact ⟨rfl, rfl, rfl, rfl, rfl, rfl, rfl, rfl, rfl, guest⟩
end


section
/-! SUPPORT. An evaluation: what it writes of the subscription's record, what it leaves of the settings, and the required dwell
that its trigger is chosen by (R98, R101 to R103, R105). -/

namespace Sys2Proof.Machine

/-! ### What an evaluation writes and leaves (R98, R101) -/

/-- Each record in turn has its own dwell count written, and no subscription is touched (R101). -/
theorem sbc_dwellStep (s : State) (x : Sub) (e : Nat) (barred : Bool) : (s.dwellStep x e barred).sbc = s.sbc :=
  keeps_foldl (P := fun t => t.sbc = s.sbc) allRecs
    (fun _ _ t ht => keeps_ite (P := fun t => t.sbc = s.sbc) ((State.sbc_cellSet t ..).trans ht)
      ((State.sbc_cellSet t ..).trans ht)) rfl

theorem set_subUpd (s : State) (x y : Sub) (f : SubRec → SubRec) : (s.subUpd x f).set y = s.set y := by
  by_cases same : y = x
  · subst same; simp [State.subUpd, State.set, State.modSbc, State.raise]
  · simp [State.subUpd, State.set, State.modSbc, State.raise, same]

/-- Of the subscription's record, an evaluation writes its count and its speed class (R98). -/
theorem sub_evaluate (s : State) (x : Sub) (barred : Bool) :
    (s.evaluate x barred).1.sub x =
      { s.sub x with
        evals := satInc max32 (s.sub x).evals, speed := speedAt (s.sub x).history s.now, change := (s.sub x).change + 1 } := by
  unfold State.evaluate
  rw [State.sub, sbc_dwellStep, ← State.sub, State.sub_subUpd_same]

theorem set_evaluate (s : State) (x y : Sub) (barred : Bool) : (s.evaluate x barred).1.set y = s.set y := by
  unfold State.evaluate
  rw [State.set, sbc_dwellStep, ← State.set, set_subUpd]

/-! ### The trigger (R102, R103) -/

/-- The trigger is chosen in the state that the evaluation leaves, by that state's count, settings and speed class (R103). -/
theorem trigger_of_evaluate {s t : State} {x : Sub} {barred : Bool} {r : Option Trigger} (h : s.evaluate x barred = (t, r)) :
    r = (t.candidate x (t.sub x).evals (requiredDwell (t.set x).dwell (t.sub x).speed barred)).map fun i => t.trigger x i := by
  obtain ⟨rfl, rfl⟩ := Prod.ext_iff.1 h
  have counted (u : State) (e : Nat) : (u.dwellStep x e barred).sub x = u.sub x := by
    rw [State.sub, sbc_dwellStep, ← State.sub]
  simp only [State.evaluate, counted]

end Sys2Proof.Machine

open Sys2Proof Sys2Proof.Machine

/-- Settles O58: the factor by its three classes, the barred window by its own branch; an evaluation writes the speed class before
it chooses, and leaves the dwell setting as it was taken. -/
theorem requiredDwell : Obligations.RequiredDwell := by
  refine ⟨fun _ => ⟨rfl, rfl, rfl⟩, fun _ _ => if_pos rfl, fun s t x b r evaluates => ?_⟩
  have chosen := trigger_of_evaluate evaluates
  obtain rfl : (s.evaluate x b).1 = t := congrArg Prod.fst evaluates
  rw [set_evaluate] at chosen
  exact ⟨by rw [sub_evaluate], chosen⟩
end

section
/-! SUPPORT. LEAVE: the voice frames that it suspends, and the target sought in a FREE context; and a handover that fails before
its reversion deadline, whatever requests are retried in the context that it frees (R22, R118 to R120, R123, R149, R150). -/

namespace Sys2Proof.Machine

/-! ### Voice frames suspended (R118, R149, R150) -/

/-- The uplink status entry that a frame shares with every eighth frame (R149). -/
def State.upEntry (s : State) (k : Fin 4) (f : Frame) : UpEntry := (s.call k).part.status[cellIndex f]

/-- The uplink entries of frames made SUSPENDED one after another. -/
def State.suspendUplinks (s : State) (k : Fin 4) (l : List DownPending) : State :=
  l.foldl (fun t p => t.upSuspend k p.frame) s

/-- The downlink frames that a call has pending, SUSPENDED where they are after the order frame. -/
def Call.suspendDowns (c : Call) (f : Frame) : Call :=
  { c with pends := c.pends.map fun p => if ahead p.frame f then { p with outcome := some (.suspended, []) } else p }

theorem suspendVoice_eq (s : State) (k : Fin 4) (f : Frame) : s.suspendVoice k f =
    (s.suspendUplinks k ((s.call k).pends.filter fun p => ahead p.frame f)).modCall k fun c => c.suspendDowns f := rfl

theorem suspendUplinks_keeps {P : State → Prop} {k : Fin 4} (turn : ∀ t f, P t → P (t.upFinal k f .suspended))
    (l : List DownPending) {s : State} (h : P s) : P (s.suspendUplinks k l) :=
  keeps_foldl l (fun p _ t ht => keeps_ite ht (turn t p.frame ht)) h

theorem Steady.suspendVoice {P : State → Prop} (S : Steady P) {s : State} {k : Fin 4} {f : Frame} (h : P s) :
    P (s.suspendVoice k f) := by
  rw [suspendVoice_eq]
  exact S.modCall (suspendUplinks_keeps (fun _ _ ht => S.upFinal ht) _ h)

theorem steady_mbu (v : Pair MbuX) : Steady fun t => t.mbu = v :=
  ⟨fun h => h, fun h => h, fun h => h, fun _ h => h, fun _ h => h⟩

theorem ledger_suspendVoice (s : State) (k : Fin 4) (f : Frame) : (s.suspendVoice k f).ledger = s.ledger := by
  rw [suspendVoice_eq]
  exact (ledger_modCall _ k).trans
    (suspendUplinks_keeps (P := fun t => t.ledger = s.ledger) (fun t g ht => (ledger_upFinal t k g _).trans ht) _ rfl)

theorem pends_upFinal (s : State) (k : Fin 4) (f : Frame) (o : UpOutcome) :
    ((s.upFinal k f o).call k).pends = (s.call k).pends := by
  unfold State.upFinal
  split
  · unfold State.upWrite State.callStatusUpd
    rw [State.call, State.clu_raiseIf, ← State.call, State.call_modCall_same]
  · rfl

/-- Of the downlink frames pending, each after the order frame has become SUSPENDED, whatever its outcome was. -/
theorem mem_pends_suspendVoice {s : State} {k : Fin 4} {f : Frame} {p : DownPending} (mem : p ∈ (s.call k).pends)
    (after : ahead p.frame f = true) :
    { p with outcome := some (.suspended, []) } ∈ ((s.suspendVoice k f).call k).pends := by
  have kept := suspendUplinks_keeps (P := fun t => (t.call k).pends = (s.call k).pends)
    (fun t g ht => (pends_upFinal t k g _).trans ht) ((s.call k).pends.filter fun q => ahead q.frame f) rfl
  rw [suspendVoice_eq, State.call_modCall_same, Call.suspendDowns, kept]
  exact List.mem_map.2 ⟨p, mem, if_pos after⟩

/-- An entry that names its own frame is left alone as another frame is suspended. -/
theorem upEntry_upSuspend_other {s : State} {k : Fin 4} {f g : Frame} (names : (s.upEntry k g).frame = g) (other : f ≠ g) :
    (s.upSuspend k f).upEntry k g = s.upEntry k g := by
  unfold State.upSuspend
  split
  · rfl
  · by_cases named : (s.upEntry k f).frame = f
    · have apart : cellIndex f ≠ cellIndex g := by
        intro same
        have shared : s.upEntry k f = s.upEntry k g := by simp only [State.upEntry, same]
        exact other (by rw [← named, shared, names])
      unfold State.upEntry
      simp only [call_upFinal _ named]
      exact Vector.getElem_set_ne _ _ fun same => apart (Fin.ext same)
    · exact congrArg (fun t => State.upEntry t k g) (if_neg named)

/-- Frames suspended one after another: the entry that names one of them is then SUSPENDED, and one that was stays so. -/
theorem upEntry_suspendUplinks {k : Fin 4} {g : Frame} (l : List DownPending) {s : State} (names : (s.upEntry k g).frame = g)
    (h : (∃ p ∈ l, p.frame = g) ∨ s.upEntry k g = { frame := g, outcome := .suspended }) :
    (s.suspendUplinks k l).upEntry k g = { frame := g, outcome := .suspended } := by
  induction l generalizing s with
  | nil => exact h.resolve_left (by simp)
  | cons q l ih =>
    by_cases here : q.frame = g
    · have suspended : (s.upSuspend k q.frame).upEntry k g = { frame := g, outcome := .suspended } := by
        rw [here]
        exact status_upSuspend s k g names
      exact ih (by rw [suspended]) (.inr suspended)
    · have same := upEntry_upSuspend_other names here
      refine ih (by rw [same]; exact names) ?_
      rw [same]
      exact h.imp_left fun ⟨p, mem, frame⟩ =>
        ⟨p, (List.mem_cons.1 mem).resolve_left fun first => here (first ▸ frame), frame⟩

/-- The uplink entry of a pending frame after the order frame becomes SUSPENDED while it names the frame. -/
theorem upEntry_suspendVoice {s : State} {k : Fin 4} {f : Frame} {p : DownPending} (mem : p ∈ (s.call k).pends)
    (after : ahead p.frame f = true) (names : (s.upEntry k p.frame).frame = p.frame) :
    (s.suspendVoice k f).upEntry k p.frame = { frame := p.frame, outcome := .suspended } := by
  have suspended := upEntry_suspendUplinks ((s.call k).pends.filter fun q => ahead q.frame f) names
    (.inl ⟨p, List.mem_filter.2 ⟨mem, after⟩, rfl⟩)
  rw [suspendVoice_eq, ← suspended]
  unfold State.upEntry
  simp only [State.call_modCall_same, Call.suspendDowns]

/-! ### The segment in flight abandoned (R161) -/

@[simp] theorem clu_promote (s : State) (x : Sub) : (s.promote x).clu = s.clu := by
  unfold State.promote
  split
  · rfl
  · split <;> simp

@[simp] theorem clu_leaveQueue (s : State) (x : Sub) (i : Fin 8) : (s.leaveQueue x i).clu = s.clu := by
  unfold State.leaveQueue
  split <;> simp

@[simp] theorem clu_finishHead (s : State) (x : Sub) (st : OutState) (f : OutSlot → OutSlot) :
    (s.finishHead x st f).clu = s.clu := by
  unfold State.finishHead
  split <;> simp

@[simp] theorem clu_abandon (s : State) (x : Sub) : (s.abandon x).clu = s.clu := by
  unfold State.abandon
  split
  · dsimp only
    split <;> simp
  · rfl

/-! ### LEAVE (R20, R118, R119) -/

/-- A key that no context holds is sought in the lowest-numbered FREE context (R20). -/
theorem allocate_of_free {s : State} {key : Key} {d : Fin 3} (r : Role) (x : Sub) (unheld : s.ctxWith key = none)
    (free : s.freeIndex = some d) :
    s.allocate r x key = s.modCtx d fun t => t.seekFor key (s.newUser r x) s.now := by
  unfold State.allocate State.tryJoin
  rw [unheld, free]

/-- The context seeks the key for the user. -/
def Ctx.seeks (c : Ctx) (key : Key) (r : Role) (x : Sub) : Prop := c.state = .seek ∧ c.key = key ∧ c.hasUser r x = true

theorem seeks_seekFor (c : Ctx) (key : Key) (r : Role) (x : Sub) (s : State) (now : Nat) :
    (c.seekFor key (s.newUser r x) now).seeks key r x := by
  simp [Ctx.seeks, Ctx.seekFor, Ctx.hasUser, State.newUser]

/-- The machine as the leave time is set. -/
def State.departed (s : State) (x : Sub) : State := s.modMachine x fun m => { m with leaveTime := s.now, state := .acquire }

/-- The state in which LEAVE asks for the target, the old slots let go. -/
def State.slotsLetGo (s : State) (x : Sub) (k : Fin 4) (c : Fin 3) (f : Frame) : State :=
  ((((s.departed x).suspendVoice k f).abandon x).withdraw x
    fun p => p.ctx == c && (!p.started || isBeacon p.kind)).cancelDeferred .target x

/-- LEAVE that has its request for the target served ends there. -/
theorem leaveOld_of_served {s : State} {x : Sub} {k : Fin 4} {c : Fin 3} {f : Frame} {o : Order}
    (served : (((s.slotsLetGo x k c f).allocate .target x o.key).tmu.deferred.any
      fun q => q.role == .target && q.sub == x) = false) :
    s.leaveOld x k c f o = (s.slotsLetGo x k c f).allocate .target x o.key := if_neg (ne_true_of_eq_false served)

/-- Letting the old slots go touches of the timing unit the deferred requests alone, and of the calls and the handover machines
the suspended voice and the leave time. -/
theorem slotsLetGo_frame (s : State) (x : Sub) (k : Fin 4) (c : Fin 3) (f : Frame) :
    (s.slotsLetGo x k c f).tmu =
        { s.tmu with deferred := s.tmu.deferred.filter fun q => !(q.role == .target && q.sub == x) } ∧
      (s.slotsLetGo x k c f).clu = ((s.departed x).suspendVoice k f).clu ∧
      (s.slotsLetGo x k c f).mbu = (s.departed x).mbu := by
  have tmu := (steady_tmu s.tmu).abandon (x := x) ((steady_tmu s.tmu).suspendVoice (s := s.departed x) (k := k) (f := f) rfl)
  have mbu := (steady_mbu _).abandon (x := x) ((steady_mbu _).suspendVoice (s := s.departed x) (k := k) (f := f) rfl)
  refine ⟨?_, by simp [State.slotsLetGo], mbu⟩
  rw [← tmu]
  rfl

/-- What LEAVE comes to where a context is FREE for the target: the target's seek in it, and of the calls and the handover
machines the voice suspended and the leave time set alone. -/
theorem leaveOld_of_free {s : State} {x : Sub} {k : Fin 4} {f : Frame} {o : Order} {d : Fin 3} (c : Fin 3)
    (unheld : s.ctxWith o.key = none) (free : s.freeIndex = some d) :
    ((s.leaveOld x k c f o).ctx d).seeks o.key .target x ∧
      (s.leaveOld x k c f o).clu = ((s.departed x).suspendVoice k f).clu ∧
      (s.leaveOld x k c f o).mbu = (s.departed x).mbu ∧ (s.leaveOld x k c f o).tmu.freed = s.tmu.freed := by
  obtain ⟨tmu, clu, mbu⟩ := slotsLetGo_frame s x k c f
  have served := leaveOld_of_served (s := s) (x := x) (k := k) (c := c) (f := f) (o := o)
  generalize s.slotsLetGo x k c f = v at tmu clu mbu served
  have ctx : v.ctx = s.ctx := by
    funext e
    rw [State.ctx, tmu, State.ctx]
  have sought : v.allocate .target x o.key = v.modCtx d fun t => t.seekFor o.key (v.newUser .target x) v.now :=
    allocate_of_free .target x (by rw [← unheld, State.ctxWith, ctx, ← State.ctxWith])
      (by rw [← free, State.freeIndex, ctx, ← State.freeIndex])
  have deferred : (v.allocate .target x o.key).tmu.deferred =
      s.tmu.deferred.filter fun q => !(q.role == .target && q.sub == x) := by
    rw [sought]
    exact congrArg Tmu.deferred tmu
  have freed : v.tmu.freed = s.tmu.freed := by rw [tmu]
  have left := served (List.any_eq_false.2 fun q waits => by
    rw [deferred] at waits
    simpa only [Bool.not_eq_true, Bool.not_eq_true'] using (List.mem_filter.1 waits).2)
  rw [left, sought, State.ctx_modCtx_same]
  exact ⟨seeks_seekFor _ _ _ _ v _, clu, mbu, freed⟩

theorem leaving_eq {s : State} {x : Sub} {k : Fin 4} {c : Fin 3} {f : Frame} {o : Order} (state : (s.machine x).state = .leave)
    (call : s.callOf x = some k) (old : (s.machine x).oldCtx = some c) (frame : (s.machine x).orderFrame = some f)
    (order : (s.machine x).order = some o) : s.leaving x = some (k, c, f, o) := by
  unfold State.leaving
  dsimp only
  rw [state, call, old, frame, order]

theorem execLeave_of_leaving {s u : State} {dt : Nat} {x : Sub} {k : Fin 4} {c : Fin 3} {f : Frame} {o : Order}
    (time : u = s.advance dt) (working : u.working = true) (leaving : u.leaving x = some (k, c, f, o))
    (come : (u.ctx c).startOf (f + 1) ≤ u.now) : execLeave dt x s = .next (u.finish (u.leaveOld x k c f o)) := by
  unfold execLeave
  rw [block_of_passed time working (by rw [leaving]; exact decide_eq_true come), leaving]

/-- What follows a command that frees no context leaves each seek as it is. -/
theorem seeks_finish (s0 : State) {s : State} {d : Fin 3} {key : Key} {r : Role} {x : Sub} (unfreed : s.tmu.freed = false)
    (h : (s.ctx d).seeks key r x) : ((s0.finish s).ctx d).seeks key r x := by
  obtain ⟨b, e, ctx⟩ := ctx_finish s0 s d
  rw [ctx, retried_of_unfreed unfreed]
  exact h

/-! ### A handover that fails (R123) -/

/-- The machine as it reverts. -/
def HoMachine.reverted (m : HoMachine) : HoMachine :=
  { m with state := .reverting, lock := none, arrivals := 0, area := none }

/-- A handover that fails before its reversion deadline has its machine revert, whatever the target's leaving brings about. -/
theorem course_failHandover {s : State} (x : Sub) (early : s.now < (s.machine x).leaveTime + reversionTime) :
    (s.failHandover x).ledger.machines x = (s.ledger.machines x).reverted := by
  have left (p : Occ → Bool) : (((s.removeRole .target x).withdraw x p).dropTarget x).ledger = s.ledger := by simp
  unfold State.failHandover
  dsimp only
  rw [if_neg (Nat.not_le.2 early)]
  have left := left fun o => some o.ctx == s.ctxOf .target x && !o.started
  generalize State.dropTarget _ x = v at left ⊢
  have reverts : (v.modMachine x HoMachine.reverted).ledger.machines x = (s.ledger.machines x).reverted := by
    rw [← left]
    exact congrArg HoMachine.course (State.machine_modMachine_same v x _)
  split
  · split
    · exact (congrArg (fun l => l.machines x) (ledger_request _ _)).trans reverts
    · exact reverts
  · exact reverts

theorem execArriveTimeout_of_limit {s u : State} {dt : Nat} {x : Sub} {c : Fin 3} {n : Frame} (time : u = s.advance dt)
    (working : u.working = true) (arriving : (u.machine x).state = .arrive) (target : u.ctxOf .target x = some c)
    (lock : (u.machine x).lock = some n) (come : (u.ctx c).startOf (n + 6) ≤ u.now) :
    execArriveTimeout dt x s = .next (u.finish (u.failHandover x)) := by
  unfold execArriveTimeout
  refine block_of_passed time working ?_
  rw [target, lock, arriving]
  exact decide_eq_true come

end Sys2Proof.Machine

open Sys2Proof Sys2Proof.Machine

/-- Settles O50: LEAVE writes the call's frames and the machine before the target's seek takes its context, and frees none; a
timeout at ARRIVE may free one, but no request retried in it touches a handover's course. -/
theorem handoverLeavesAndReverts : Obligations.HandoverLeavesAndReverts := by
  constructor
  · intro s u dt x k c f o time working marks state call old frame order come unheld free
    obtain ⟨d, free⟩ := Option.isSome_iff_exists.1 free
    obtain ⟨seeks, clu, mbu, freed⟩ := leaveOld_of_free (x := x) (k := k) (f := f) c unheld free
    have unfreed := freed.trans (unfreed_of_marksOk marks).1
    refine ⟨_, execLeave_of_leaving time working (leaving_eq state call old frame order) come, ?_⟩
    have machine : (u.finish (u.leaveOld x k c f o)).machine x =
        { u.machine x with leaveTime := u.now, state := .acquire } := by
      rw [State.machine, mbu_finish, retried_of_unfreed unfreed, mbu]
      exact State.machine_modMachine_same u x _
    have called : (u.finish (u.leaveOld x k c f o)).call k = ((u.departed x).suspendVoice k f).call k := by
      rw [State.call, clu_finish_of_unfreed unfreed, clu, ← State.call]
    rw [machine, called]
    refine ⟨rfl, rfl, ?_, fun p mem after => ⟨?_, ?_⟩, d, seeks_finish u unfreed seeks⟩
    · exact congrArg (fun l => (l.calls k).state) (ledger_suspendVoice (u.departed x) k f)
    · exact mem_pends_suspendVoice (s := u.departed x) mem after
    · exact upEntry_suspendVoice (s := u.departed x) mem after
  · intro s u dt x c n time working arriving target lock come early
    refine ⟨_, execArriveTimeout_of_limit time working arriving target lock come, ?_⟩
    have course : (u.finish (u.failHandover x)).ledger.machines x = (u.ledger.machines x).reverted := by
      rw [ledger_finish, course_failHandover x early]
    exact ⟨congrArg HoMachine.state course, congrArg HoMachine.lock course, (congrArg HoMachine.leaveTime course :)⟩
end

section
/-! SUPPORT. The takes of CALLS, OUTBOX and INBOX as whole commands (R133, R153, R168, R185). -/

namespace Sys2Proof.Machine

/-- What is held of a call context, an outbox slot or an inbox slot after its area's take, field by field. -/
theorem callFollows_iff {k : Fin 4} {s : State} :
    s.callFollows k ↔ (s.call k).part.taken = s.callStamp k ∧ (s.call k).notify = s.callNotify k := Prod.ext_iff
theorem slotFollows_iff {i : Fin 8} {s : State} :
    s.slotFollows i ↔ (s.slot i).taken = s.outStamp i ∧ (s.slot i).notify = s.outNotify i := Prod.ext_iff
theorem releaseFollows_iff {i : Fin 8} {s : State} : s.releaseFollows i ↔ (s.txu.inbox[i]).release = s.inRelease i := Iff.rfl

/-- What a take leaves once its command is over: the area's bit clear, the host's memory, and what the take has read. -/
structure TakeDone (s u : State) (a : Area) (t t' : State) : Prop where
  scan  : t'.exm.scan = u.exm.scan &&& ~~~ (areaMask a)
  host  : t'.exm.mem = s.exm.mem
  mem   : t'.exm.mem = u.exm.mem
  kept  : t'.exm.mem = t.exm.mem
  taken : t'.taken = t.taken

theorem takeDone_finish {s u t : State} {dt : Nat} {a : Area} (time : u = s.advance dt)
    (outer : t.outer = (u.scanClear a).outer) : TakeDone s u a t (u.finish t) := by
  obtain ⟨mem, scan, -⟩ := host_finish u t
  have read : t.exm.mem = u.exm.mem := congrArg Outer.mem outer
  exact ⟨scan.trans (congrArg Outer.scan outer), mem.trans (read.trans (mem_passed time)), mem.trans read, mem,
    taken_finish u t⟩

namespace TakeDone

variable {s u t t' : State} {a : Area}

theorem call (h : TakeDone s u a t t') {k : Fin 4} (follows : t.callFollows k) :
    (t'.call k).part.taken = u.callStamp k ∧ (t'.call k).notify = u.callNotify k := by
  have still : t'.callFollows k := by
    rw [State.callFollows, h.taken, callStamp_of_mem h.kept, callNotify_of_mem h.kept]
    exact follows
  rw [← callStamp_of_mem h.mem, ← callNotify_of_mem h.mem]
  exact callFollows_iff.1 still

theorem slot (h : TakeDone s u a t t') {i : Fin 8} (follows : t.slotFollows i) :
    (t'.slot i).taken = u.outStamp i ∧ (t'.slot i).notify = u.outNotify i := by
  have still : t'.slotFollows i := by
    rw [State.slotFollows, h.taken, outStamp_of_mem h.kept, outNotify_of_mem h.kept]
    exact follows
  rw [← outStamp_of_mem h.mem, ← outNotify_of_mem h.mem]
  exact slotFollows_iff.1 still

theorem release (h : TakeDone s u a t t') {i : Fin 8} (follows : t.releaseFollows i) :
    (t'.txu.inbox[i]).release = u.inRelease i := by
  have still : t'.releaseFollows i := by
    rw [State.releaseFollows, h.taken, inRelease_of_mem h.kept]
    exact follows
  rw [← inRelease_of_mem h.mem]
  exact releaseFollows_iff.1 still

end TakeDone

end Sys2Proof.Machine

open Sys2Proof Sys2Proof.Machine

/-- Settles O26: the take reads every host half of its area, and nothing that follows the take touches what it has read. -/
theorem requestTakes : Obligations.RequestTakes := by
  refine ⟨⟨?_, ?_⟩, ?_⟩
  · intro s u dt time working posted
    have finished := takeDone_finish time (outer_takeCalls u)
    exact ⟨_, block_of_passed time working posted, finished.scan, finished.host,
      fun k => finished.call (callFollows_takeCalls u k)⟩
  · intro s u dt time working posted
    have finished := takeDone_finish time (outer_takeOutbox u)
    exact ⟨_, block_of_passed time working posted, finished.scan, finished.host,
      fun i => finished.slot (slotFollows_takeOutbox u i)⟩
  · intro s u dt time working posted
    have finished := takeDone_finish time (outer_takeInbox u)
    exact ⟨_, block_of_passed time working posted, finished.scan, finished.host,
      fun i => finished.release (releaseFollows_takeInbox u i)⟩
end

section
/-! The FREE of a call context and of an outbox slot (R137, R154). -/

open Sys2Proof Sys2Proof.Machine

/-- Settles O48: a FREE is one update of the record, by the state that it finds. -/
theorem freeRequests : Obligations.FreeRequests := by
  refine ⟨fun s k t => ⟨fun ended => if_pos ended, fun other => if_neg other⟩, fun s i t => ⟨?_, ?_⟩⟩
  · rintro (final | final | final) <;> rw [State.takeOutFree, final] <;> rfl
  · rintro (other | other | other | other) <;> rw [State.takeOutFree, other] <;> rfl
end

section
/-! SUPPORT. The writes of a voice frame's records when they are due (R148, R150): the frame base, and the downlink voice cell. -/

namespace Sys2Proof.Machine

/-! ### What follows a command that frees no context -/

theorem call_finish_of_unfreed {s0 s : State} (h : s.tmu.freed = false) (k : Fin 4) : (s0.finish s).call k = s.call k := by
  rw [State.call, clu_finish_of_unfreed h, State.call]

theorem attn_finish_of_unfreed {s0 s : State} (h : s.tmu.freed = false) : (s0.finish s).exm.attn = s.exm.attn := by
  rw [exm_finish, retried_of_unfreed h]

/-! ### The frame base (R148) -/

theorem baseDue_of_first {s : State} {k : Fin 4} {c : Fin 3} {f : Frame} {l : List Frame} (bases : (s.call k).bases = f :: l)
    (serving : s.servingCtx (s.call k).part.owner = some c) (come : (s.ctx c).startOf f ≤ s.now) :
    s.baseDue k = some (f, (s.ctx c).startOf f) := by
  unfold State.baseDue
  rw [bases, serving]
  exact if_pos come

/-- The frame base of the call's earliest voice frame written. -/
def State.baseWrite (s : State) (k : Fin 4) (f : Frame) (t : Nat) : State :=
  (s.modCall k fun c => { c with bases := c.bases.tail }).callUpd k fun r => { r with baseFrame := f, baseTime := t }

theorem execFrameBaseWrite_of_due {s u : State} {dt : Nat} {k : Fin 4} {f : Frame} {t : Nat} (time : u = s.advance dt)
    (working : u.working = true) (due : u.baseDue k = some (f, t)) :
    execFrameBaseWrite dt k s = .next (u.finish (u.baseWrite k f t)) := by
  unfold execFrameBaseWrite
  rw [block_of_passed time working (by rw [due]; rfl), due]
  rfl

theorem call_baseWrite (s : State) (k : Fin 4) (f : Frame) (t : Nat) :
    ((s.baseWrite k f t).call k).part = { (s.call k).part with
      baseFrame := f, baseTime := t, change := (s.call k).part.change + 1 } ∧
    ((s.baseWrite k f t).call k).bases = (s.call k).bases.tail := by
  simp [State.baseWrite, State.callUpd, State.raise, State.modCall, State.call]

/-! ### The downlink voice cell (R150) -/

theorem execDownlinkCellWrite_of_ready {s u : State} {dt : Nat} {k : Fin 4} {f : Frame} {p : DownPending} (time : u = s.advance dt)
    (working : u.working = true) (ready : (u.call k).pends.find? (fun q => q.frame == f && u.downReady q) = some p) :
    execDownlinkCellWrite dt k f s = .next (u.finish (u.downWrite k p)) := by
  unfold execDownlinkCellWrite
  dsimp only
  rw [block_of_passed time working (by rw [ready]; rfl), ready]

/-- A pending downlink frame whose outcome is known has its cell written and its outcome counted, in one command. -/
theorem call_downWrite {s : State} {k : Fin 4} {p : DownPending} {o : DownOutcome} {payload : List Byte}
    (known : p.outcome = some (o, payload)) :
    ((s.downWrite k p).call k).cells[cellIndex p.frame] =
      ((s.call k).cells[cellIndex p.frame]).write p o payload (s.downTime p) ∧
    ((s.downWrite k p).call k).part.downs = (s.call k).part.downs.add o := by
  unfold State.downWrite
  rw [known]
  simp [State.callUpd, State.raise, State.modCall, State.call]

theorem raised_downWrite {s : State} {k : Fin 4} {p : DownPending} (known : p.outcome.isSome = true) :
    (s.downWrite k p).exm.attn = s.exm.attn ||| areaMask .calls ||| areaMask .voice := by
  obtain ⟨⟨o, payload⟩, known⟩ := Option.isSome_iff_exists.1 known
  unfold State.downWrite
  rw [known]
  rfl

theorem downTime_of_slot {s : State} {p : DownPending} (slot : p.slot ≠ 0) : s.downTime p = s.downDue p := if_neg slot

end Sys2Proof.Machine

open Sys2Proof Sys2Proof.Machine

/-- Settles O38: each write is made of updates of the one call context, and frees no timing context. -/
theorem voiceRecordsAreWritten : Obligations.VoiceRecordsAreWritten := by
  constructor
  · intro s u dt k c f l time working marks bases serving come
    have unfreed : (u.baseWrite k f ((u.ctx c).startOf f)).tmu.freed = false := (unfreed_of_marksOk marks).1
    obtain ⟨part, rest⟩ := call_baseWrite u k f ((u.ctx c).startOf f)
    refine ⟨_, execFrameBaseWrite_of_due time working (baseDue_of_first bases serving come), ?_⟩
    rw [call_finish_of_unfreed unfreed, attn_finish_of_unfreed unfreed, rpl_finish, txu_finish_of_unfreed unfreed,
      retried_of_unfreed unfreed]
    exact ⟨part, rest.trans (congrArg List.tail bases), raised_bit u.exm.attn .calls, rfl, rfl⟩
  · intro s u dt k f p o payload time working marks ready known
    have frame : p.frame = f := by
      have named := List.find?_some ready
      rw [Bool.and_eq_true, beq_iff_eq] at named
      exact named.1
    subst frame
    have unfreed : (u.downWrite k p).tmu.freed = false :=
      (congrArg Tmu.freed ((steady_tmu u.tmu).downWrite rfl)).trans (unfreed_of_marksOk marks).1
    obtain ⟨cell, downs⟩ := call_downWrite (s := u) (k := k) known
    refine ⟨_, execDownlinkCellWrite_of_ready time working ready, ?_⟩
    rw [call_finish_of_unfreed unfreed, attn_finish_of_unfreed unfreed, cell, downs, raised_downWrite (by rw [known]; rfl)]
    refine ⟨rfl, rfl, rfl, rfl, downTime_of_slot, rfl, raised_bit _ .voice, ?_⟩
    rw [BitVec.or_assoc, BitVec.or_comm (areaMask .calls), ← BitVec.or_assoc]
    exact raised_bit _ .calls
end

section
/-! SUPPORT. How a call ends, and what its end leaves of its subscription and of the other calls (R62, R75, R139, R142, R143, R147). -/

namespace Sys2Proof.Machine

/-! ### The other calls (R147) -/

/-- The other calls stand, no context has gone FREE and no time has passed. -/
structure OthersStand (k : Fin 4) (s t : State) : Prop where
  others : ∀ j, j ≠ k → t.call j = s.call j
  freed  : t.tmu.freed = s.tmu.freed
  now    : t.now = s.now

namespace OthersStand

variable {k : Fin 4} {s t : State}

theorem refl (k : Fin 4) (s : State) : OthersStand k s s := ⟨fun _ _ => rfl, rfl, rfl⟩

theorem raise (h : OthersStand k s t) (a : Area) : OthersStand k s (t.raise a) := ⟨h.others, h.freed, h.now⟩

theorem withdraw (h : OthersStand k s t) (x : Sub) (p : Occ → Bool) : OthersStand k s (t.withdraw x p) :=
  ⟨h.others, h.freed, h.now⟩

theorem modMachine (h : OthersStand k s t) (x : Sub) (f : HoMachine → HoMachine) : OthersStand k s (t.modMachine x f) :=
  ⟨h.others, h.freed, h.now⟩

theorem modCall (h : OthersStand k s t) (f : Call → Call) : OthersStand k s (t.modCall k f) :=
  ⟨fun j other => (State.call_modCall_other t other f).trans (h.others j other), h.freed, h.now⟩

theorem upFinal (h : OthersStand k s t) (f : Frame) (o : UpOutcome) : OthersStand k s (t.upFinal k f o) := by
  unfold State.upFinal State.upWrite State.callStatusUpd State.raiseIf
  exact keeps_ite (keeps_ite ((h.modCall _).raise .voice) (h.modCall _)) h

theorem downWrite (h : OthersStand k s t) (p : DownPending) : OthersStand k s (t.downWrite k p) := by
  unfold State.downWrite
  split
  · exact h
  · exact (((h.modCall _).modCall _).raise .calls).raise .voice

theorem flush (h : OthersStand k s t) (p : DownPending → Bool) : OthersStand k s (t.flush k p) :=
  keeps_foldl _ (fun q _ _ ht => ht.downWrite q) h

theorem dropUplinks (h : OthersStand k s t) : OthersStand k s (t.dropUplinks k) :=
  keeps_foldl _ (fun _ _ _ ht => ht.upFinal _ _) h

theorem unstage (h : OthersStand k s t) : OthersStand k s (t.unstage k) := by
  refine keeps_foldl allCtx (fun c _ t ht => ?_) h
  split
  · exact keeps_ite (s := t.modCtx c _) ⟨ht.others, ht.freed, ht.now⟩ ht
  · exact ht

end OthersStand

/-- The working state that no ended call has (R147). -/
def Call.settled (c : Call) : Call := { c with ring := none, access := none, release := none, bases := [], pends := [] }

/-- What a call's end does up to the write of its record: it settles the one call. -/
theorem closeCall_of_others (s : State) (k : Fin 4) (cause : CallCause) (byte : BitVec 8) : ∃ t : State,
    OthersStand k s t ∧ (∃ c : Call, t.call k = c.settled) ∧ s.closeCall k cause byte =
      t.callUpd k fun r => { r with state := .ended, cause := cause, causeByte := byte, endTime := s.now } := by
  have withdrawn (x : Sub) (p : Occ → Bool) := (((OthersStand.refl k s).flush s.downReady).dropUplinks).withdraw x p
  have stands (x : Sub) (p : Occ → Bool) := keeps_ite (P := OthersStand k s) (c := s.holding k = true)
    ((withdrawn x p).modMachine x fun m => { m with claims := [] }) (withdrawn x p)
  have before := stands (s.call k).part.owner (ofCall (s.call k).part.owner k (s.holding k))
  unfold State.closeCall
  dsimp only
  generalize (if s.holding k = true then _ else _ : State) = t at before ⊢
  rw [← before.now]
  have unstaged : ((t.modCall k Call.settled).unstage k).clu = (t.modCall k Call.settled).clu := by
    refine keeps_foldl (P := fun v => v.clu = (t.modCall k Call.settled).clu) allCtx (fun c _ v hv => ?_) rfl
    split
    · exact keeps_ite (P := fun v => v.clu = _) hv hv
    · exact hv
  refine ⟨_, (before.modCall Call.settled).unstage, ⟨t.call k, ?_⟩, rfl⟩
  rw [State.call, unstaged, ← State.call, State.call_modCall_same]

/-- What a call's end leaves of the one call, and of the state beside it. -/
structure CallOver (s : State) (k : Fin 4) (cause : CallCause) (byte : BitVec 8) (t : State) : Prop extends OthersStand k s t where
  state  : (t.call k).part.state = .ended
  cause  : (t.call k).part.cause = cause
  byte   : (t.call k).part.causeByte = byte
  time   : (t.call k).part.endTime = s.now
  ring   : (t.call k).ring = none
  raised : t.exm.attn &&& areaMask .calls ≠ 0

theorem callOver_closeCall (s : State) (k : Fin 4) (cause : CallCause) (byte : BitVec 8) :
    CallOver s k cause byte (s.closeCall k cause byte) := by
  obtain ⟨t, before, ⟨c, settled⟩, closed⟩ := closeCall_of_others s k cause byte
  have ring : ((t.callUpd k fun r =>
      { r with state := .ended, cause := cause, causeByte := byte, endTime := s.now }).call k).ring = (t.call k).ring := by
    simp [State.callUpd, State.raise, State.modCall, State.call]
  rw [closed]
  refine ⟨(before.modCall _).raise .calls, ?_, ?_, ?_, ?_, ring.trans (congrArg Call.ring settled), raised_bit _ .calls⟩ <;>
    rw [State.call_callUpd_same]

/-! ### A RINGING call (R139) -/

theorem endCall_of_ringing {s : State} {k : Fin 4} (ringing : (s.call k).part.state = .ringing) (cause : CallCause)
    (byte : BitVec 8) : s.endCall k cause byte = s.closeCall k cause byte :=
  if_neg (by rw [State.holding, ringing]; decide)

theorem execRingingExpiry_of_due {s u : State} {dt : Nat} {k : Fin 4} {d : Nat} (time : u = s.advance dt)
    (working : u.working = true) (ringing : (u.call k).part.state = .ringing) (expiry : (u.call k).ring = some d)
    (come : d ≤ u.now) : execRingingExpiry dt k s = .next (u.finish (u.endCall k .notAnswered 0)) :=
  block_of_passed (g := fun s => s.ringDue k) time working (by simp [State.ringDue, State.dueAt, ringing, expiry, come])

/-! ### The subscription of a radio-holding call (R62, R75) -/

/-- What is said of one subscription's side cannot be disturbed by what frees contexts and ends calls. -/
theorem freeSteady_side {x : Sub} {R : SbcX → Prop} (blind : CountsBlind R) : FreeSteady fun t => R (t.sbc.get x) where
  toTableSteady := (allocSteady_side blind).toTableSteady
  wait h := h
  ctx _ h := h

/-- In a state, with no search pass. -/
def SbcX.restsIn (st : SubState) (b : SbcX) : Prop := b.search = none ∧ b.part.state = st

theorem blind_restsIn (st : SubState) : CountsBlind (SbcX.restsIn st) := fun _ _ _ _ h => h

theorem restsIn_retried {s : State} {x : Sub} {st : SubState} (h : (s.sbc.get x).restsIn st) :
    (s.retried.sbc.get x).restsIn st :=
  side_retried (blind_restsIn st) (fun {t} ht => by rwa [side_searchPreempted_of_none ht.1]) h

theorem restsIn_goOff (s : State) (x : Sub) : ((s.goOff x).sbc.get x).restsIn .off := by
  have F := freeSteady_side (x := x) (blind_restsIn .off)
  have A := allocSteady_side (x := x) (blind_restsIn .off)
  refine F.raise (F.raise (A.dropProbes (F.disableRinging (F.dropReceipts (F.dropReasm (F.failQueue ?_))))))
  simp [SbcX.restsIn, State.modSbc, State.subUpd, State.raise]

theorem TableSteady.clearFailRun {P : State → Prop} (T : TableSteady P) {s : State} {x : Sub} (h : P s) :
    P (s.clearFailRun x) := by
  unfold State.clearFailRun
  split
  · exact T.cellSet h
  · exact h

/-- A subscription with no search pass returns to CAMPED, or goes OFF under a held disable. -/
theorem restsIn_backToCamped {s : State} {x : Sub} (idle : (s.sbc.get x).search = none) :
    ((s.backToCamped x).sbc.get x).restsIn (if (s.sbc.get x).disableHeld then .off else .camped) := by
  unfold State.backToCamped
  by_cases held : (s.sbc.get x).disableHeld = true
  · rw [if_pos held, if_pos held]
    exact restsIn_goOff s x
  · rw [if_neg held, if_neg held]
    dsimp only
    have F := freeSteady_side (x := x) (blind_restsIn .camped)
    have left : ((((s.removeRole .target x).dropTarget x).resetMachine x .idle).sbc.get x).search = none := by
      have F := freeSteady_side (x := x) (R := fun b => b.search = none) fun _ _ _ _ h => h
      exact F.resetMachine (F.dropTarget (F.removeRole idle))
    have camped (v : State) (hv : (v.sbc.get x).search = none) :
        ((v.subUpd x fun r => { r with state := .camped, missed := 0 }).sbc.get x).restsIn .camped := by
      simp [SbcX.restsIn, State.subUpd, State.modSbc, State.raise, hv]
    have named (v : State) (f : Frame) (hv : (v.sbc.get x).restsIn .camped) : ((v.nameWindow x f).sbc.get x).restsIn .camped := by
      simpa [SbcX.restsIn, State.nameWindow, State.modSbc] using hv
    have rests (f : Frame) := named _ f (F.clearFailRun (x := x) (camped _ left))
    exact keeps_ite (P := fun t => (t.sbc.get x).restsIn .camped) (F.textsBack (rests _)) (rests _)

theorem restsIn_endCall {s : State} {k : Fin 4} (holds : s.holding k = true) (cause : CallCause) (byte : BitVec 8)
    (idle : (s.sbc.get (s.call k).part.owner).search = none) :
    ((s.endCall k cause byte).sbc.get (s.call k).part.owner).restsIn
      (if (s.sbc.get (s.call k).part.owner).disableHeld then .off else .camped) := by
  have F := freeSteady_side (x := (s.call k).part.owner)
    (R := fun b => b.search = none ∧ b.disableHeld = (s.sbc.get (s.call k).part.owner).disableHeld) fun _ _ _ _ h => h
  obtain ⟨still, held⟩ := F.closeCall (k := k) (cause := cause) (byte := byte) ⟨idle, rfl⟩
  unfold State.endCall
  dsimp only
  rw [if_pos holds, ← held]
  exact restsIn_backToCamped still

/-- The subscription of a radio-holding call holds no search pass (R64, R66). -/
theorem search_of_holding {s : State} (service : s.serviceOk = true) {k : Fin 4} (holds : s.holding k = true) :
    (s.sbc.get (s.call k).part.owner).search = none := by
  simp only [State.serviceOk, Bool.and_eq_true, List.all_eq_true] at service
  obtain ⟨⟨⟨passes, calls⟩, -⟩, -⟩ := service
  have served := calls k (mem_allCalls k)
  have searches := passes _ (mem_allSubs (s.call k).part.owner)
  simp only [holds, Bool.not_true, Bool.false_or, Bool.and_eq_true, Bool.or_eq_true, beq_iff_eq, Option.isNone_iff_eq_none]
    at served searches
  rcases searches with idle | searching
  · exact idle
  · rw [searching] at served
    simp at served

/-! ### The call's record, whatever its subscription does next (R147) -/

@[simp] theorem ledger_clearFailRun (s : State) (x : Sub) : (s.clearFailRun x).ledger = s.ledger := by
  unfold State.clearFailRun
  split
  · exact ledger_cellSet s x _ _
  · rfl

@[simp] theorem ledger_nameWindow (s : State) (x : Sub) (f : Frame) : (s.nameWindow x f).ledger = s.ledger := ledger_modSbc s x

@[simp] theorem ledger_textsBack (s : State) (x : Sub) (b : Bool) : (s.textsBack x b).ledger = s.ledger := by
  have kept : (s.keepOut x).ledger = s.ledger := by
    unfold State.keepOut
    split
    · rfl
    · exact (ledger_modSide _ x _).trans (ledger_ite (ledger_slotUpd s _ false _) rfl)
  have resumed : (s.resumeHead x).ledger = s.ledger := by
    unfold State.resumeHead
    split <;> rfl
  have restarted : (s.restartHead x).ledger = s.ledger := by
    unfold State.restartHead
    split
    · rfl
    · exact ledger_ite rfl rfl
  exact ledger_ite kept (ledger_ite restarted resumed)

/-- The return to CAMPED, or to OFF, changes no call that is not RINGING. -/
theorem ledger_backToCamped {s : State} (x : Sub) {k : Fin 4} (quiet : (s.ledger.calls k).state ≠ .ringing) :
    (s.backToCamped x).ledger.calls k = s.ledger.calls k := by
  unfold State.backToCamped
  refine keeps_ite (P := fun t => t.ledger.calls k = s.ledger.calls k) (ledger_goOff x quiet).1 ?_
  have camped (t : State) : (t.subUpd x fun r => { r with state := .camped, missed := 0 }).ledger = t.ledger :=
    ledger_subUpd t x
  have back : ∀ t : State, t.ledger = s.ledger.idle x → t.ledger.calls k = s.ledger.calls k :=
    fun t same => congrArg (fun v => v.calls k) same
  dsimp only
  exact keeps_ite (P := fun t => t.ledger.calls k = s.ledger.calls k)
    (back _ (by simp [camped, ledger_resetMachine_idle])) (back _ (by simp [camped, ledger_resetMachine_idle]))

theorem ledger_endCall {s : State} {k : Fin 4} (cause : CallCause) (byte : BitVec 8) :
    (s.endCall k cause byte).ledger.calls k = (s.ledger.calls k).ended cause s.now := by
  have closed : (s.closeCall k cause byte).ledger.calls k = (s.ledger.calls k).ended cause s.now := by
    rw [ledger_closeCall]
    exact if_pos rfl
  refine keeps_ite (P := fun t => t.ledger.calls k = _) ?_ closed
  exact (ledger_backToCamped _ (by rw [closed]; simp [CallStand.ended])).trans closed

/-- A radio-holding call ended, and its subscription, once the command is ended. -/
theorem endCall_over (s0 : State) {u : State} {k : Fin 4} (service : u.serviceOk = true) (holds : u.holding k = true)
    (cause : CallCause) : let t := s0.finish (u.endCall k cause 0)
    (t.call k).part.state = .ended ∧ (t.call k).part.cause = cause ∧ (t.call k).part.endTime = u.now ∧
      (t.sub (u.call k).part.owner).state = if (u.sbc.get (u.call k).part.owner).disableHeld then .off else .camped := by
  dsimp only
  have ended : (s0.finish (u.endCall k cause 0)).ledger.calls k = (u.ledger.calls k).ended cause u.now := by
    rw [ledger_finish, ledger_endCall]
  refine ⟨congrArg CallStand.state ended, congrArg CallStand.cause ended, congrArg CallStand.endTime ended, ?_⟩
  rw [State.sub, sbc_finish]
  exact (restsIn_retried (restsIn_endCall holds cause 0 (search_of_holding service holds))).2

/-! ### The timers of access and release (R142, R143) -/

theorem execAccessTimerExpiry_of_reached {s u : State} {dt : Nat} {k : Fin 4} {f : Frame} {a : Access} (time : u = s.advance dt)
    (working : u.working = true) (holds : u.holding k = true)
    (reached : u.servingReached (u.call k).part.owner (f + 20) = true) (access : (u.call k).access = some a)
    (first : a.first = some f) : execAccessTimerExpiry dt k s = .next (u.finish (u.endCall k .noResponse 0)) := by
  refine block_of_passed time working ?_
  rw [access, Option.bind_some, first, holds]
  exact reached

theorem execReleaseTimerExpiry_of_reached {s u : State} {dt : Nat} {k : Fin 4} {f : Frame} {r : Release} (time : u = s.advance dt)
    (working : u.working = true) (holds : u.holding k = true)
    (reached : u.servingReached (u.call k).part.owner (f + 20) = true) (release : (u.call k).release = some r)
    (first : r.first = some f) : execReleaseTimerExpiry dt k s = .next (u.finish (u.endCall k .localRelease 0)) := by
  refine block_of_passed time working ?_
  rw [release, Option.bind_some, first, holds]
  exact reached

end Sys2Proof.Machine

open Sys2Proof Sys2Proof.Machine

/-- Settles O46: a RINGING call's end is its own record's; a radio-holding one's takes its subscription back to CAMPED, or OFF, and
no request retried in a context freed by it moves a subscription that holds no search pass. -/
theorem callTimersEndTheCall : Obligations.CallTimersEndTheCall := by
  constructor
  · intro s u dt k d time working marks ringing expiry come
    have ended := callOver_closeCall u k .notAnswered 0
    have unfreed := ended.freed.trans (unfreed_of_marksOk marks).1
    refine ⟨_, execRingingExpiry_of_due time working ringing expiry come, ?_⟩
    rw [endCall_of_ringing ringing, call_finish_of_unfreed unfreed, attn_finish_of_unfreed unfreed]
    refine ⟨ended.state, ended.cause, ended.byte, ended.time, ended.ring, ended.raised, fun j other => ?_⟩
    rw [call_finish_of_unfreed unfreed]
    exact ended.others j other
  · intro s u dt k f time working marks service holds reached
    refine ⟨fun a access first => ?_, fun r release first => ?_⟩
    · exact ⟨_, execAccessTimerExpiry_of_reached time working holds reached access first, endCall_over u service holds _⟩
    · exact ⟨_, execReleaseTimerExpiry_of_reached time working holds reached release first, endCall_over u service holds _⟩
end

section
/-! SUPPORT. A DIAL (R75, R132 to R134): connecting its subscription writes no call ref, whatever outcomes the occupancies of the
reselection that is dropped come to. -/

namespace Sys2Proof.Machine

/-! ### The call refs, beside the texts and the voice (chapters 8 and 9) -/

@[simp] theorem clu_attemptFailed (s : State) (x : Sub) (e : Frame) : (s.attemptFailed x e).clu = s.clu := by
  unfold State.attemptFailed
  split
  · rfl
  · dsimp only
    split <;> simp
@[simp] theorem clu_segmentOutcome (s : State) (x : Sub) (h : Handle) (ref : Ref) (e : Ending) :
    (s.segmentOutcome x h ref e).clu = s.clu := by
  have kept {c : Prop} [Decidable c] {t : State} (ht : t.clu = s.clu) : (if c then t else s).clu = s.clu :=
    keeps_ite (P := fun t => t.clu = s.clu) ht rfl
  unfold State.segmentOutcome
  dsimp only
  split
  · rfl
  · refine kept ?_
    split
    · exact keeps_ite (P := fun t => t.clu = s.clu) (by simp) (by simp)
    · simp
  · refine kept ?_
    split <;> simp
@[simp] theorem clu_receiptOutcome (s : State) (x : Sub) (ref : Ref) (w : Option (Fin 4)) (e : Ending) :
    (s.receiptOutcome x ref w e).clu = s.clu := by
  unfold State.receiptOutcome
  split
  · exact keeps_ite (P := fun t => t.clu = s.clu) rfl rfl
  · rfl

/-- The subscriptions' next call refs. -/
def State.refs (s : State) : Pair Ref := s.clu.nextRef

theorem refs_of_clu {s t : State} (h : t.clu = s.clu) : t.refs = s.refs := congrArg Clu.nextRef h

@[simp] theorem refs_callOutcome (s : State) (k : Fin 4) (o : Occ) (e : Ending) : (s.callOutcome k o e).refs = s.refs := by
  have kept {c : Prop} [Decidable c] {t : State} (ht : t.refs = s.refs) : (if c then t else s).refs = s.refs :=
    keeps_ite (P := fun t => t.refs = s.refs) ht rfl
  have up (f : Frame) (v : UpOutcome) : (s.upFinal k f v).refs = s.refs :=
    kept (keeps_ite (P := fun t => t.refs = s.refs) rfl rfl)
  unfold State.callOutcome
  split
  · exact kept rfl
  · exact up _ _
  · exact up _ _
  · rfl

theorem refs_deliverTo (s : State) (o : Occ) (e : Ending) (x : Sub) : (s.deliverTo o e x).refs = s.refs := by
  unfold State.deliverTo
  split
  · rfl
  · next w _ =>
    have paged : (if w.kind = .paging then s.pagingOutcome x e else s).refs = s.refs :=
      keeps_ite (P := fun t => t.refs = s.refs) (refs_of_clu (clu_pagingOutcome s x e)) rfl
    dsimp only
    split
    · exact (refs_callOutcome _ _ _ _).trans paged
    · exact (refs_of_clu (clu_segmentOutcome _ _ _ _ _)).trans paged
    · exact (refs_of_clu (clu_receiptOutcome _ _ _ _ _)).trans paged
    · exact paged

/-! ### Users that leave (R19) -/

theorem refs_revoke (s : State) (c : Fin 3) (n : Nat) : (s.revoke c n).refs = s.refs :=
  keeps_foldl (P := fun t => t.refs = s.refs) _
    (fun p _ t ht => (refs_deliverTo _ p.1 _ .b).trans ((refs_deliverTo t p.1 _ .a).trans ht)) rfl

theorem refs_removeRole (s : State) (r : Role) (x : Sub) : (s.removeRole r x).refs = s.refs := by
  have removed (t : State) (c : Fin 3) : (t.removeUser c r x).refs = t.refs := by
    unfold State.removeUser
    refine keeps_ite (P := fun v => v.refs = t.refs) ?_ rfl
    have seeks : (if isSeek r = true then (t.modCtx c fun k => k.dropUser r x).withdrawSeek x c
        else t.modCtx c fun k => k.dropUser r x).refs = t.refs := keeps_ite (P := fun v => v.refs = t.refs) rfl rfl
    exact keeps_ite (P := fun v => v.refs = t.refs) ((refs_revoke _ c _).trans seeks) seeks
  unfold State.removeRole
  dsimp only
  split
  · exact removed _ _
  · rfl

/-! ### A subscription connected (R75) -/

theorem refs_connect (s : State) (x : Sub) : (s.connect x).refs = s.refs := by
  have listen : (s.endListen x).refs = s.refs := by
    unfold State.endListen
    split <;> rfl
  have cleared (t : State) : (t.clearFailRun x).refs = t.refs := by
    unfold State.clearFailRun State.cellSet
    split
    · exact keeps_ite (P := fun v => v.refs = t.refs) rfl rfl
    · rfl
  exact (cleared _).trans ((refs_removeRole _ .verify x).trans listen)

theorem state_connect (s : State) (x : Sub) : ((s.connect x).sub x).state = .connected := by
  have F := freeSteady_side (x := x) (R := fun b => b.part.state = .connected) fun _ _ _ _ h => h
  exact F.resetMachine (F.clearFailRun (congrArg SubRec.state (State.sub_subUpd_same _ x _)))

theorem machine_connect (s : State) (x : Sub) : ((s.connect x).machine x).state = .watch :=
  congrArg HoMachine.state (State.machine_modMachine_same _ x _)

/-! ### A DIAL (R132 to R134) -/

/-- What a call context's record says of a DIAL accepted (R132, R133, R134). -/
structure CallRec.dials (r : CallRec) (t : Stamp) (x : Sub) (ref : Ref) : Prop where
  state  : r.state = .dialling
  owner  : r.owner = x
  ref    : r.ref = ref
  taken  : r.taken = t
  result : r.result = .ok
  down   : r.down = 0
  up     : r.up = 0
  epoch  : r.epoch = 0

theorem part_acceptDial (s : State) (k : Fin 4) (t : Stamp) (x : Sub) :
    ((s.acceptDial k t x).call k).part.dials t x (s.refs.get x) := by
  unfold State.acceptDial
  dsimp only
  rw [State.call_callUpd_same]
  exact ⟨rfl, rfl, congrArg (fun p => p.get x) (refs_connect s x), rfl, rfl, rfl, rfl, rfl⟩

theorem dial_acceptDial (s : State) (k : Fin 4) (t : Stamp) (x : Sub) : ((s.acceptDial k t x).call k).dial = s.callDial k := by
  have copied : ((s.acceptDial k t x).call k).dial = (s.connect x).callDial k := by
    simp [State.acceptDial, State.callUpd, State.raise, State.modCall, State.call]
  rw [copied, State.callDial, State.mem_of_outer (outer_connect s x), State.callDial]

theorem refs_acceptDial (s : State) (k : Fin 4) (t : Stamp) (x : Sub) :
    (s.acceptDial k t x).refs.get x = s.refs.get x + 1 := by
  rw [← refs_connect s x]
  exact Pair.get_set_same _ x _

theorem sub_acceptDial (s : State) (k : Fin 4) (t : Stamp) (x : Sub) :
    ((s.acceptDial k t x).sub x).state = .connected ∧ ((s.acceptDial k t x).machine x).state = .watch := by
  have connected := state_connect s x
  have watches := machine_connect s x
  unfold State.acceptDial
  dsimp only
  generalize s.connect x = v at connected watches ⊢
  exact ⟨connected, watches⟩

theorem takeDial_of_free {s : State} {k : Fin 4} {x : Sub} (t : Stamp) (named : s.callSub k = some x)
    (free : (s.call k).part.state = .free ∨ (s.call k).part.state = .ended) : s.takeDial k t =
      if s.anyHolding then s.refuseCall k t .busyRadio
      else if s.canConnect x = false then s.refuseCall k t .noService
      else s.acceptDial k t x := by
  unfold State.takeDial
  rw [named]
  exact if_neg (not_not.2 free)

end Sys2Proof.Machine

open Sys2Proof Sys2Proof.Machine

/-- Settles O47: an accepted DIAL takes the call ref that connecting its subscription has left. -/
theorem dialIsAcceptedOrRefused : Obligations.DialIsAcceptedOrRefused := by
  intro s k t x named free
  rw [takeDial_of_free t named free]
  refine ⟨fun idle camped unheld => ?_, fun busy => if_pos busy⟩
  have connects : s.canConnect x = true := by simp [State.canConnect, camped, unheld]
  rw [if_neg (by simp [idle]), if_neg (by simp [connects])]
  obtain ⟨state, owner, ref, taken, result, down, up, epoch⟩ := part_acceptDial s k t x
  exact ⟨state, owner, ref, refs_acceptDial s k t x, taken, result, down, up, epoch, dial_acceptDial s k t x,
    sub_acceptDial s k t x⟩
end

section
/-! SUPPORT. The head of a send queue brought to its end, a reassembly context discarded, and the acknowledgement window that
closes at its own row (R151, R152, R156, R158, R160 to R162, R165, R167). -/

namespace Sys2Proof.Machine

/-! ### The slot and the side of a head that ends (R151, R152) -/

@[simp] theorem reasm_modReasm_same (s : State) (r : Fin 4) (f : Reasm → Reasm) :
    (s.modReasm r f).txu.reasm[r] = f s.txu.reasm[r] := by
  simp [State.modReasm]
@[simp] theorem reasm_modReasm_other (s : State) {r q : Fin 4} (h : q ≠ r) (f : Reasm → Reasm) :
    (s.modReasm r f).txu.reasm[q] = s.txu.reasm[q] := by
  simp only [State.modReasm, Fin.getElem_fin]
  exact Vector.getElem_set_ne _ _ fun same => h (Fin.ext same.symm)

/-- A slot that is not QUEUED is none that becomes head. -/
theorem slot_promote {s : State} {i : Fin 8} (x : Sub) (h : (s.slot i).state ≠ .queued) : (s.promote x).slot i = s.slot i := by
  unfold State.promote
  split
  · rfl
  · next j _ =>
    split
    · next queued =>
      rw [State.slot_modSide, slot_slotUpd_other]
      rintro rfl
      exact h queued
    · rfl

theorem slot_leaveQueue {s : State} {i : Fin 8} (x : Sub) (j : Fin 8) (h : (s.slot i).state ≠ .queued) :
    (s.leaveQueue x j).slot i = s.slot i := by
  unfold State.leaveQueue
  split
  · exact slot_promote x h
  · rfl

/-- The head's slot once it is brought to a final state. -/
theorem slot_finishHead {s : State} {x : Sub} {i : Fin 8} (head : s.head x = some i) {st : OutState} (ended : st ≠ .queued)
    (f : OutSlot → OutSlot) :
    (s.finishHead x st f).slot i = { (f (s.slot i)).finish st s.now with change := (s.slot i).change + 1 } := by
  unfold State.finishHead
  rw [head]
  dsimp only
  rw [slot_leaveQueue x i (by rw [State.slot_slotUpd_same]; exact ended), State.slot_slotUpd_same]

theorem head_of_side {s t : State} {x : Sub} (h : t.side x = s.side x) : t.head x = s.head x := congrArg (·.queue.head?) h

theorem flight_finishHead {s : State} {x : Sub} {i : Fin 8} (head : s.head x = some i) (st : OutState)
    (f : OutSlot → OutSlot) : ((s.finishHead x st f).side x).flight = none := by
  unfold State.finishHead State.leaveQueue
  rw [head]
  dsimp only
  rw [head_of_side (State.side_slotUpd s i true _ x), if_pos head]
  exact flight_promote (by rw [State.side_modSide_same])

/-- What follows a command that has freed no context leaves the sides and the slots. -/
theorem texts_finish_of_unfreed {s0 s : State} (h : s.tmu.freed = false) :
    (∀ x, (s0.finish s).side x = s.side x) ∧ ∀ i, (s0.finish s).slot i = s.slot i := by
  have txu : (s0.finish s).txu = s.txu := txu_finish_of_unfreed h
  exact ⟨fun x => congrArg (fun v : Txu => v.side.get x) txu, fun i => congrArg (fun v : Txu => v.slots[i]) txu⟩

/-! ### Heads that fail (R158, R161, R162) -/

/-- From `u` to `t` the head in slot `i` has failed for a cause: its slot is FAILED, with its final time and no withdraw
pending, and OUTBOX is raised; the call unit and the cell tables stand. -/
def HeadFailed (i : Fin 8) (c : FailCause) (u t : State) : Prop :=
  (t.slot i).state = .failed ∧ (t.slot i).cause = c ∧ (t.slot i).final = u.now ∧ (t.slot i).withdraw = false ∧
    t.exm.attn &&& areaMask .outbox ≠ 0 ∧ t.clu = u.clu ∧ t.cmu = u.cmu

theorem failHead_fails {u : State} {x : Sub} {i : Fin 8} (marks : u.marksOk = true) (head : u.head x = some i) (c : FailCause) :
    HeadFailed i c u (u.finish (u.failHead x c)) := by
  have unfreed : (u.failHead x c).tmu.freed = false :=
    (congrArg Tmu.freed ((steady_tmu u.tmu).finishHead rfl)).trans (unfreed_of_marksOk marks).1
  have raised : (u.failHead x c).exm.attn &&& areaMask .outbox ≠ 0 := by
    unfold State.failHead State.finishHead
    rw [head]
    exact (steady_raised .outbox).leaveQueue (raised_bit u.exm.attn .outbox)
  unfold HeadFailed
  rw [(texts_finish_of_unfreed unfreed).2, attn_finish_of_unfreed unfreed, clu_finish_of_unfreed unfreed, cmu_finish,
    retried_of_unfreed unfreed, State.failHead, slot_finishHead head (by decide)]
  exact ⟨rfl, rfl, rfl, rfl, raised, clu_finishHead u x _ _, (steady_cmu u.cmu).finishHead rfl⟩

theorem execNoAck_of_exhausted {s u : State} {dt : Nat} {x : Sub} (time : u = s.advance dt) (working : u.working = true)
    (out : (u.side x).plan = .exhausted) : execNoAck dt x s = .next (u.finish (u.failHead x .noAck)) :=
  block_of_passed (g := fun s => (s.side x).plan == .exhausted) time working (by rw [out]; rfl)

theorem execRestartLimit_of_restarts {s u : State} {dt : Nat} {x : Sub} {i : Fin 8} (time : u = s.advance dt)
    (working : u.working = true) (head : u.head x = some i) (out : 4 ≤ (u.slot i).restarts) :
    execRestartLimit dt x s = .next (u.finish (u.failHead x .restartLimit)) := by
  refine block_of_passed (g := fun s => s.restartsOut x) time working ?_
  unfold State.restartsOut
  rw [head]
  exact decide_eq_true out

theorem execPauseExpiry_of_due {s u : State} {dt d : Nat} {x : Sub} (time : u = s.advance dt) (working : u.working = true)
    (paused : (u.side x).pause = some d) (come : d ≤ u.now) :
    execPauseExpiry dt x s = .next (u.finish (u.failHead x .noService)) := by
  refine block_of_passed (g := fun s => s.dueAt (s.side x).pause) time working ?_
  rw [paused]
  exact decide_eq_true come

/-! ### Reassembly (R163, R165, R167) -/

theorem execReassemblyTimeout_of_due {s u : State} {dt : Nat} {r : Fin 4} (time : u = s.advance dt) (working : u.working = true)
    (held : (u.txu.reasm[r]).state ≠ .idle) (come : (u.txu.reasm[r]).lastTime + 2000000 ≤ u.now) :
    execReassemblyTimeout dt r s = .next (u.finish (u.discardReasm r)) := by
  refine block_of_passed (g := fun s => s.reasmDue r) time working ?_
  unfold State.reasmDue
  rw [Bool.and_eq_true, bne_iff_ne]
  exact ⟨held, decide_eq_true come⟩

/-! ### A failed attempt (R156, R158, R160) -/

/-- The subscription's segment in flight let go. -/
def State.landed (s : State) (x : Sub) : State := s.modSide x fun d => { d with flight := none }

theorem head_landed (s : State) (x : Sub) : (s.landed x).head x = s.head x := by
  unfold State.head State.landed
  rw [State.side_modSide_same]

/-- With a withdraw pending a failed attempt ends the message. -/
theorem attemptFailed_of_withdraw {s : State} {x : Sub} {i : Fin 8} (e : Frame) (head : s.head x = some i)
    (pending : (s.slot i).withdraw = true) : s.attemptFailed x e = (s.landed x).finishHead x .withdrawn id := by
  unfold State.attemptFailed
  rw [head]
  exact if_pos pending

theorem slot_attemptFailed_of_withdraw {s : State} {x : Sub} {i : Fin 8} (e : Frame) (head : s.head x = some i)
    (pending : (s.slot i).withdraw = true) :
    (s.attemptFailed x e).slot i = { (s.slot i).finish .withdrawn s.now with change := (s.slot i).change + 1 } := by
  rw [attemptFailed_of_withdraw e head pending, slot_finishHead ((head_landed s x).trans head) (by decide)]
  rfl

/-- With none pending the slot is updated and the next send planned: none after the fourth attempt (R158). -/
theorem attemptFailed_of_kept {s : State} {x : Sub} {i : Fin 8} (e : Frame) (head : s.head x = some i)
    (kept : (s.slot i).withdraw = false) : ∃ (plan : SendPlan) (pause : SendSide → Option Nat),
      s.attemptFailed x e = ((s.landed x).slotUpd i false id).modSide x (fun d => { d with plan := plan, pause := pause d }) ∧
        (4 ≤ (s.slot i).attempts → plan = .exhausted) := by
  have unpending : ¬((s.landed x).slot i).withdraw = true := by
    rw [Bool.not_eq_true]
    exact kept
  unfold State.attemptFailed
  rw [head]
  exact ⟨_, fun d => if attemptMax ≤ (s.slot i).attempts then none else d.pause, if_neg unpending,
    fun fourth => if_pos fourth⟩

theorem slot_attemptFailed_of_kept {s : State} {x : Sub} {i : Fin 8} (e : Frame) (head : s.head x = some i)
    (kept : (s.slot i).withdraw = false) :
    (s.attemptFailed x e).slot i = { s.slot i with change := (s.slot i).change + 1 } := by
  obtain ⟨plan, pause, failed, -⟩ := attemptFailed_of_kept e head kept
  rw [failed, State.slot_modSide, State.slot_slotUpd_same]
  rfl

theorem plan_attemptFailed_of_kept {s : State} {x : Sub} {i : Fin 8} (e : Frame) (head : s.head x = some i)
    (kept : (s.slot i).withdraw = false) (fourth : 4 ≤ (s.slot i).attempts) :
    ((s.attemptFailed x e).side x).plan = .exhausted := by
  obtain ⟨plan, pause, failed, out⟩ := attemptFailed_of_kept e head kept
  rw [failed, State.side_modSide_same]
  exact out fourth

theorem execAckWindowClose_of_reached {s u : State} {dt : Nat} {x : Sub} {g : Flight} (time : u = s.advance dt)
    (working : u.working = true) (flight : (u.side x).flight = some g) (sent : g.sent = true)
    (reached : u.servingReached x (g.frame + 6) = true) :
    execAckWindowClose dt x s = .next (u.finish (u.closeWindow x g.frame)) := by
  have closing : u.closingWindow x = some g.frame := by
    unfold State.closingWindow
    rw [flight]
    exact if_pos (by rw [sent]; exact reached)
  unfold execAckWindowClose
  rw [block_of_passed time working (by rw [closing]; rfl), closing]

end Sys2Proof.Machine

open Sys2Proof Sys2Proof.Machine

/-- Settles O52: each of the three commands fails the head, and nothing else that follows them touches its slot. -/
theorem headFails : Obligations.HeadFails := by
  intro s u dt x i time working marks head
  refine ⟨fun out => ⟨_, execNoAck_of_exhausted time working out, failHead_fails marks head .noAck⟩,
    fun out => ⟨_, execRestartLimit_of_restarts time working head out, failHead_fails marks head .restartLimit⟩,
    fun d paused come => ⟨_, execPauseExpiry_of_due time working paused come, failHead_fails marks head .noService⟩⟩

/-- Settles O53: the discard is one update of the context, and what follows it leaves the text unit and the radio link. -/
theorem reassemblyTimesOut : Obligations.ReassemblyTimesOut := by
  intro s u dt r time working marks held come
  obtain ⟨unfreed, unleft⟩ := unfreed_of_marksOk marks
  refine ⟨_, execReassemblyTimeout_of_due time working held come, ?_⟩
  have stays : (u.discardReasm r).tmu.freed = false := unfreed
  rw [txu_finish_of_unfreed stays, rpl_finish, retried_of_unfreed stays]
  refine ⟨reasm_modReasm_same u r _, fun q other => reasm_modReasm_other u other _, rfl, rfl, rfl, ?_⟩
  rw [← unleft]
  rfl

/-- Settles O60: the one ending that acts is DONE, on the context that still waits for this receipt. -/
theorem lastReceiptLetsGo : Obligations.LastReceiptLetsGo := by
  intro s x ref
  refine ⟨fun r waits owner named => ?_, fun r e other => ?_, fun e => ?_⟩
  · unfold State.receiptOutcome
    dsimp only
    rw [if_pos ⟨waits, owner, named⟩]
    exact reasm_modReasm_same s r _
  · cases e with
    | done => exact absurd rfl other
    | denied | missed | silent | aborted => rfl
  · cases e <;> rfl

end

section
/-! SUPPORT. What a planning event does to the texts of one subscription (R31, R155, R156, R158, R160): beside the closing of its
own acknowledgement window, an offer touches a text only by requests that are denied, by attempts counted, and by the segments
that it sends in the frame it offers. -/

namespace Sys2Proof.Machine

/-! ### Withdraws settled (R160) -/

/-- The slot is WITHDRAWN with its final time `now`. -/
def OutSlot.withdrawnAt (o : OutSlot) (now : Nat) : Prop := o.state = .withdrawn ∧ o.final = now

/-- A withdraw of the slot is pending, or has been settled at `now`. -/
def OutSlot.withdraws (o : OutSlot) (now : Nat) : Prop := o.withdraw = true ∨ o.withdrawnAt now

/-- From `o` to `p` a withdraw settled stays so, and one pending stays pending or is settled. -/
def WithdrawKept (now : Nat) (o p : OutSlot) : Prop :=
  (o.withdrawnAt now → p.withdrawnAt now) ∧ (o.withdraw = true → p.withdraws now)

theorem WithdrawKept.refl (now : Nat) (o : OutSlot) : WithdrawKept now o o := ⟨id, Or.inl⟩

theorem WithdrawKept.trans {now : Nat} {o p q : OutSlot} (first : WithdrawKept now o p) (second : WithdrawKept now p q) :
    WithdrawKept now o q :=
  ⟨fun h => second.1 (first.1 h), fun h => (first.2 h).elim second.2 fun done => .inr (second.1 done)⟩

theorem WithdrawKept.withdraws {now : Nat} {o p : OutSlot} (kept : WithdrawKept now o p) (h : o.withdraws now) :
    p.withdraws now := h.elim kept.2 fun done => .inr (kept.1 done)

/-- An update that leaves the slot's state, its final time and its withdraw pending. -/
def KeepsWithdraw (f : OutSlot → OutSlot) : Prop :=
  ∀ o, (f o).state = o.state ∧ (f o).final = o.final ∧ (f o).withdraw = o.withdraw

theorem withdrawKept_slotUpd (s : State) (i j : Fin 8) (b : Bool) {f : OutSlot → OutSlot} (keeps : KeepsWithdraw f) :
    WithdrawKept s.now (s.slot j) ((s.slotUpd i b f).slot j) := by
  by_cases here : j = i
  · subst here
    obtain ⟨state, final, pending⟩ := keeps (s.slot j)
    rw [State.slot_slotUpd_same]
    exact ⟨fun h => ⟨state.trans h.1, final.trans h.2⟩, fun h => .inl (pending.trans h)⟩
  · rw [slot_slotUpd_other s here]
    exact WithdrawKept.refl _ _

/-- A slot that becomes head was QUEUED, and takes no more than its state. -/
theorem withdrawKept_promote (s : State) (x : Sub) (j : Fin 8) : WithdrawKept s.now (s.slot j) ((s.promote x).slot j) := by
  by_cases queued : (s.slot j).state = .queued
  · refine ⟨fun h => absurd (queued.symm.trans h.1) (by decide), fun h => .inl ?_⟩
    unfold State.promote
    split
    · exact h
    · next i _ =>
      split
      · rw [State.slot_modSide]
        by_cases here : j = i
        · subst here
          rw [State.slot_slotUpd_same]
          exact h
        · rw [slot_slotUpd_other s here]
          exact h
      · exact h
  · rw [slot_promote x queued]
    exact WithdrawKept.refl _ _

theorem withdrawKept_leaveQueue (s : State) (x : Sub) (i j : Fin 8) :
    WithdrawKept s.now (s.slot j) ((s.leaveQueue x i).slot j) := by
  unfold State.leaveQueue
  split
  · exact withdrawKept_promote (s.modSide x _) x j
  · exact WithdrawKept.refl _ _

/-- A head that ends WITHDRAWN has its withdraw settled. -/
theorem withdrawKept_finishHead (s : State) (x : Sub) (f : OutSlot → OutSlot) (j : Fin 8) :
    WithdrawKept s.now (s.slot j) ((s.finishHead x .withdrawn f).slot j) := by
  cases head : s.head x with
  | none =>
    unfold State.finishHead
    rw [head]
    exact WithdrawKept.refl _ _
  | some i =>
    by_cases here : j = i
    · subst here
      rw [slot_finishHead head (by decide)]
      exact ⟨fun _ => ⟨rfl, rfl⟩, fun _ => .inr ⟨rfl, rfl⟩⟩
    · unfold State.finishHead
      rw [head]
      have left := withdrawKept_leaveQueue (s.slotUpd i true fun o => (f o).finish .withdrawn s.now) x i j
      rw [slot_slotUpd_other s here, State.now_of_outer (outer_slotUpd s i true _)] at left
      exact left

theorem withdrawKept_attemptFailed (s : State) (x : Sub) (e : Frame) (j : Fin 8) :
    WithdrawKept s.now (s.slot j) ((s.attemptFailed x e).slot j) := by
  unfold State.attemptFailed
  split
  · exact WithdrawKept.refl _ _
  · dsimp only
    split
    · exact withdrawKept_finishHead (s.landed x) x id j
    · exact withdrawKept_slotUpd (s.landed x) _ j false fun _ => ⟨rfl, rfl, rfl⟩

theorem withdrawKept_abandon (s : State) (x : Sub) (j : Fin 8) : WithdrawKept s.now (s.slot j) ((s.abandon x).slot j) := by
  unfold State.abandon
  split
  · dsimp only
    split
    · exact withdrawKept_finishHead ((s.withdraw x _).modSide x _) x _ j
    · exact withdrawKept_slotUpd ((s.withdraw x _).modSide x _) _ j false fun _ => ⟨rfl, rfl, rfl⟩
  · exact WithdrawKept.refl _ _

/-! ### The other subscription's side -/

theorem side_promote_other (s : State) {x y : Sub} (h : x ≠ y) : (s.promote y).side x = s.side x := by
  unfold State.promote
  split
  · rfl
  · split
    · rw [State.side_modSide_other _ h, State.side_slotUpd]
    · rfl

theorem side_leaveQueue_other (s : State) {x y : Sub} (h : x ≠ y) (i : Fin 8) : (s.leaveQueue y i).side x = s.side x := by
  unfold State.leaveQueue
  split
  · rw [side_promote_other _ h, State.side_modSide_other _ h]
  · rw [State.side_modSide_other _ h]

theorem side_finishHead_other (s : State) {x y : Sub} (h : x ≠ y) (st : OutState) (f : OutSlot → OutSlot) :
    (s.finishHead y st f).side x = s.side x := by
  unfold State.finishHead
  split
  · rfl
  · rw [side_leaveQueue_other _ h, State.side_slotUpd]

theorem side_attemptFailed_other (s : State) {x y : Sub} (h : x ≠ y) (e : Frame) : (s.attemptFailed y e).side x = s.side x := by
  unfold State.attemptFailed
  split
  · rfl
  · dsimp only
    split
    · rw [side_finishHead_other _ h, State.side_modSide_other _ h]
    · rw [State.side_modSide_other _ h, State.side_slotUpd, State.side_modSide_other _ h]

theorem side_abandon_other (s : State) {x y : Sub} (h : x ≠ y) : (s.abandon y).side x = s.side x := by
  have let_go : ∀ p f, ((s.withdraw y p).modSide y f).side x = s.side x := fun p f => State.side_modSide_other _ h f
  unfold State.abandon
  split
  · dsimp only
    split
    · rw [side_finishHead_other _ h, let_go]
    · rw [State.side_slotUpd, let_go]
  · rfl

/-! ### A segment in flight that ends -/

theorem attemptFailed_of_no_head {s : State} {x : Sub} (e : Frame) (h : s.head x = none) : s.attemptFailed x e = s := by
  unfold State.attemptFailed
  rw [h]

/-- A failed attempt sends nothing. -/
theorem flight_of_attemptFailed {s : State} {x : Sub} {e : Frame} {g : Flight}
    (h : ((s.attemptFailed x e).side x).flight = some g) : (s.side x).flight = some g := by
  cases head : s.head x with
  | none => rwa [attemptFailed_of_no_head e head] at h
  | some i =>
    rw [flight_attemptFailed e head] at h
    contradiction

theorem flight_of_abandon {s : State} {x : Sub} {g : Flight} (h : ((s.abandon x).side x).flight = some g) :
    (s.side x).flight = some g := by
  unfold State.abandon at h
  split at h
  · next i f head _ =>
    dsimp only at h
    split at h
    · rw [flight_finishHead (i := i)] at h
      · contradiction
      · unfold State.head
        rw [State.side_modSide_same]
        exact head
    · rw [State.side_slotUpd, State.side_modSide_same] at h
      contradiction
  · exact h

/-! ### What an offer may do to the texts -/

/-- The subscription has no segment in flight that has been sent. -/
def State.unsent (s : State) (x : Sub) : Prop := ∀ g, (s.side x).flight = some g → g.sent = false

/-- From `s` to `t` an offer of frame `f` has kept every withdraw; a segment that subscription `x` has in flight was so before, or
is one of frame `f` not yet sent; and while one that has been sent awaits its acknowledgement, the side of `x` stands. -/
structure TextsOffered (f : Frame) (x : Sub) (s t : State) : Prop where
  now    : t.now = s.now
  slot   : ∀ i, WithdrawKept s.now (s.slot i) (t.slot i)
  flight : ∀ g, (t.side x).flight = some g → (s.side x).flight = some g ∨ (g.frame = f ∧ g.sent = false)
  waits  : ¬s.unsent x → t.side x = s.side x

namespace TextsOffered

variable {f : Frame} {x : Sub} {s t u : State}

theorem of_txu (txu : t.txu = s.txu) (now : t.now = s.now) : TextsOffered f x s t := by
  have side : t.side x = s.side x := congrArg (fun v : Txu => v.side.get x) txu
  have slot (i : Fin 8) : t.slot i = s.slot i := congrArg (fun v : Txu => v.slots[i]) txu
  exact ⟨now, fun i => slot i ▸ WithdrawKept.refl _ _, fun g h => .inl (side ▸ h), fun _ => side⟩

theorem refl (s : State) : TextsOffered f x s s := of_txu rfl rfl

theorem unsent (h : TextsOffered f x s t) (before : s.unsent x) : t.unsent x :=
  fun g flies => (h.flight g flies).elim (before g) And.right

theorem trans (first : TextsOffered f x s t) (second : TextsOffered f x t u) : TextsOffered f x s u where
  now := second.now.trans first.now
  slot i := (first.slot i).trans (first.now ▸ second.slot i)
  flight g h := (second.flight g h).elim (first.flight g) .inr
  waits h := by
    have side := first.waits h
    refine (second.waits fun after => h ?_).trans side
    unfold State.unsent at after ⊢
    rwa [side] at after

theorem ite {c : Prop} [Decidable c] (ht : TextsOffered f x s t) (hu : TextsOffered f x s u) :
    TextsOffered f x s (if c then t else u) := keeps_ite (P := TextsOffered f x s) ht hu

theorem foldl {α : Type} {op : State → α → State} (turn : ∀ s a, TextsOffered f x s (op s a)) (l : List α) (s : State) :
    TextsOffered f x s (l.foldl op s) :=
  keeps_foldl (P := TextsOffered f x s) l (fun a _ t ht => ht.trans (turn t a)) (refl s)

/-! ### The text unit's own updates -/

/-- An update of one subscription's texts: only where that is `x` itself must it have nothing sent, and send nothing of another
frame. -/
theorem of_side (y : Sub) (now : t.now = s.now) (slot : ∀ i, WithdrawKept s.now (s.slot i) (t.slot i))
    (other : x ≠ y → t.side x = s.side x)
    (own : y = x → s.unsent x ∧
      ∀ g, (t.side x).flight = some g → (s.side x).flight = some g ∨ (g.frame = f ∧ g.sent = false)) :
    TextsOffered f x s t := by
  by_cases same : y = x
  · exact ⟨now, slot, (own same).2, fun h => absurd (own same).1 h⟩
  · have side := other fun h => same h.symm
    exact ⟨now, slot, fun g h => .inl (side ▸ h), fun _ => side⟩

theorem attemptFailed (s : State) (y : Sub) (e : Frame) (own : y = x → s.unsent x) :
    TextsOffered f x s (s.attemptFailed y e) :=
  of_side y (State.now_of_outer (outer_attemptFailed s y e)) (withdrawKept_attemptFailed s y e)
    (fun h => side_attemptFailed_other s h e)
    fun same => ⟨own same, fun _ h => .inl (flight_of_attemptFailed (e := e) (same ▸ h))⟩

theorem abandon (s : State) (y : Sub) (own : y = x → s.unsent x) : TextsOffered f x s (s.abandon y) :=
  of_side y (State.now_of_outer (outer_abandon s y)) (withdrawKept_abandon s y) (fun h => side_abandon_other s h)
    fun same => ⟨own same, fun _ h => .inl (flight_of_abandon (same ▸ h))⟩

theorem modSide (s : State) (y : Sub) {k : SendSide → SendSide} (own : y = x → s.unsent x)
    (sends : ∀ d g, (k d).flight = some g → d.flight = some g ∨ (g.frame = f ∧ g.sent = false)) :
    TextsOffered f x s (s.modSide y k) := by
  refine of_side y rfl (fun i => WithdrawKept.refl _ _) (fun h => State.side_modSide_other s h k)
    fun same => ⟨own same, fun _ h => ?_⟩
  subst same
  rw [State.side_modSide_same] at h
  exact sends _ _ h

theorem slotUpd (s : State) (i : Fin 8) (b : Bool) {k : OutSlot → OutSlot} (keeps : KeepsWithdraw k) :
    TextsOffered f x s (s.slotUpd i b k) :=
  have side : (s.slotUpd i b k).side x = s.side x := State.side_slotUpd s i b k x
  ⟨State.now_of_outer (outer_slotUpd s i b k), fun j => withdrawKept_slotUpd s i j b keeps, fun _ h => .inl (side ▸ h),
    fun _ => side⟩

/-! ### Denials (R37, R39, R156) -/

/-- A denial reaches the segment in flight that is not yet sent, and no other. -/
theorem segmentOutcome (s : State) (y : Sub) (h : Handle) (ref : Ref) (r : Denial) :
    TextsOffered f x s (s.segmentOutcome y h ref (.denied r)) := by
  unfold State.segmentOutcome
  dsimp only
  cases flies : (s.side y).flight with
  | none => cases r <;> exact refl s
  | some g =>
    have own (mine : (g.handle == h && !g.sent) = true) : y = x → s.unsent x := by
      rintro rfl g' hg
      cases flies.symm.trans hg
      rw [Bool.and_eq_true, Bool.not_eq_true'] at mine
      exact mine.2
    dsimp only
    split
    · contradiction
    · split
      · next mine =>
        have gone : TextsOffered f x s (s.abandon y) := abandon s y (own mine)
        split
        · exact ite (gone.trans (modSide _ y (fun same => gone.unsent (own mine same)) fun _ _ => .inl)) gone
        · exact gone
      · exact refl s
    · split
      · next mine => exact attemptFailed s y g.frame (own mine)
      · exact refl s

theorem deliverTo (s : State) (o : Occ) (r : Denial) (y : Sub) : TextsOffered f x s (s.deliverTo o (.denied r) y) := by
  unfold State.deliverTo
  split
  · exact refl s
  · next w _ =>
    have paged : TextsOffered f x s (if w.kind = .paging then s.pagingOutcome y (.denied r) else s) :=
      ite (of_txu (txu_pagingOutcome s y _) (State.now_of_outer (outer_pagingOutcome s y _))) (refl s)
    dsimp only
    generalize (if w.kind = .paging then s.pagingOutcome y (.denied r) else s) = t at paged
    split
    · exact paged.trans (of_txu (txu_callOutcome t _ o _) (State.now_of_outer (outer_callOutcome t _ o _)))
    · exact paged.trans (segmentOutcome t y _ _ r)
    · unfold State.receiptOutcome
      split
      · contradiction
      · exact paged
    · exact paged

theorem deliverDenials (l : List (Occ × Denial)) (s : State) : TextsOffered f x s (s.deliverDenials l) :=
  foldl (fun s p => (deliverTo s p.1 p.2 .a).trans (deliverTo _ p.1 p.2 .b)) l s

/-! ### Requests (R37, R41, R44) -/

theorem askDenied (s : State) (n : Occ) (r : Denial) : TextsOffered f x s (s.askDenied n r) :=
  foldl (fun s y => ite (of_txu (State.txu_subSet s y _) (State.now_of_outer (outer_subSet s y _))) (refl s)) allSubs s

theorem ask (s : State) (n : Occ) : TextsOffered f x s (s.ask n).1 := by
  unfold State.ask
  split
  · exact askDenied s n _
  · split
    · exact of_txu rfl rfl
    · unfold State.enter
      dsimp only
      split
      · exact askDenied s n _
      · dsimp only
        refine trans ?_ (deliverDenials _ _)
        exact of_txu rfl rfl

theorem of_asked {n : Occ} {a : Answer} (asked : s.ask n = (t, a)) : TextsOffered f x s t := by
  have offered : TextsOffered f x s (s.ask n).1 := ask s n
  rwa [asked] at offered

theorem request (s : State) (n : Occ) : TextsOffered f x s (s.request n) := ask s n

theorem requestSeek (s : State) (o : Occ) (use : Use) (us : List User) : TextsOffered f x s (s.requestSeek o use us) := by
  unfold State.requestSeek
  split
  · exact refl s
  · exact request s _

/-! ### Updates of the other blocks -/

theorem modCall (s : State) (k : Fin 4) (c : Call → Call) : TextsOffered f x s (s.modCall k c) := of_txu rfl rfl
theorem modMachine (s : State) (y : Sub) (m : HoMachine → HoMachine) : TextsOffered f x s (s.modMachine y m) := of_txu rfl rfl
theorem nameWindow (s : State) (y : Sub) (g : Frame) : TextsOffered f x s (s.nameWindow y g) := of_txu rfl rfl
theorem setDecline (s : State) (y : Sub) (r : Option Ref) : TextsOffered f x s (s.setDecline y r) := of_txu rfl rfl
theorem noteMeasure (s : State) (y : Sub) (c : Fin 3) (g : Frame) (r : Fin 18) : TextsOffered f x s (s.noteMeasure y c g r) :=
  of_txu rfl rfl
theorem upWrite (s : State) (k : Fin 4) (g : Frame) (o : UpOutcome) : TextsOffered f x s (s.upWrite k g o) :=
  of_txu (State.txu_callStatusUpd s k _) (State.now_of_outer (outer_upWrite s k g o))
theorem expectDown (s : State) (k : Fin 4) (c : Fin 3) (g : Frame) (o : Option DownOutcome) :
    TextsOffered f x s (s.expectDown k c g o) := of_txu rfl rfl

/-- The receipts that wait are no part of the queues. -/
theorem dropReceipts (s : State) (y : Sub) : TextsOffered f x s (s.dropReceipts y) :=
  ⟨rfl, fun _ => WithdrawKept.refl _ _, fun _ => .inl, fun _ => rfl⟩

theorem giveUp (s : State) (y : Sub) : TextsOffered f x s (s.giveUp y) := by
  refine of_txu ?_ (State.now_of_outer (outer_giveUp s y))
  unfold State.giveUp
  split <;> rfl

/-! ### What a subscription asks of a frame (R68, R90, R113 to R115, R120, R141 to R143, R149, R150, R164) -/

theorem offerReportTimer (s : State) (y : Sub) (g : Frame) : TextsOffered f x s (s.offerReportTimer y g) := by
  unfold State.offerReportTimer State.reportTimer
  refine ite ?_ (refl s)
  dsimp only
  refine ite ?_ (giveUp s y)
  split
  · exact modMachine s y _
  · exact refl s

theorem offerSuspended (s : State) (y : Sub) (c : Fin 3) (g : Frame) : TextsOffered f x s (s.offerSuspended y c g) := by
  unfold State.offerSuspended
  split
  · exact ite ((upWrite s _ g _).trans (expectDown _ _ c g _)) (refl s)
  · exact refl s

theorem offerWindow (s : State) (y : Sub) (c : Fin 3) (g : Frame) : TextsOffered f x s (s.offerWindow y c g) := by
  unfold State.offerWindow
  split
  · exact refl s
  · exact ite ((request s _).trans (nameWindow _ y g)) (ite (nameWindow s y g) (refl s))

theorem offerBeacon (s : State) (y : Sub) (c : Fin 3) (g : Frame) : TextsOffered f x s (s.offerBeacon y c g) := by
  unfold State.offerBeacon
  have window := offerWindow (f := f) (x := x) s y c g
  split
  · exact request s _
  · exact ite (request s _) (refl s)
  · exact ite window (ite (window.trans (request _ _)) window)
  · exact refl s

theorem offerDown (s : State) (y : Sub) (c : Fin 3) (g : Frame) (k : Fin 4) : TextsOffered f x s (s.offerDown y c g k) := by
  unfold State.offerDown
  dsimp only
  split
  · next granted => exact (of_asked granted).trans (expectDown _ k c g _)
  · next denied => exact (of_asked denied).trans (expectDown _ k c g _)

theorem askUp (s : State) (y : Sub) (c : Fin 3) (g : Frame) (k : Fin 4) (kind : Kind) (b : Uplink) :
    TextsOffered f x s (s.askUp y c g k kind b) := by
  unfold State.askUp
  dsimp only
  split
  · next granted => exact (of_asked granted).trans (upWrite _ k g _)
  · next denied => exact (of_asked denied).trans (upWrite _ k g _)

theorem offerUp (s : State) (y : Sub) (c : Fin 3) (g : Frame) (k : Fin 4) : TextsOffered f x s (s.offerUp y c g k) := by
  unfold State.offerUp
  split
  · exact (modMachine s y _).trans (askUp _ y c g k _ _)
  · exact ite ((modCall s k _).trans (askUp _ y c g k _ _)) (askUp s y c g k _ _)

theorem offerCallSlot (s : State) (y : Sub) (c : Fin 3) (g : Frame) (i : Nat) : TextsOffered f x s (s.offerCallSlot y c g i) := by
  unfold State.offerCallSlot
  split
  · exact refl s
  · next k _ =>
    exact ite (refl s) (ite (ite (request s _) (refl s))
      (ite (ite (offerDown s y c g k) (ite (offerUp s y c g k) (refl s))) (refl s)))

theorem offerListen (s : State) (y : Sub) (c : Fin 3) (g : Frame) (i : Nat) : TextsOffered f x s (s.offerListen y c g i) := by
  unfold State.offerListen
  split
  · exact ite (request s _) (refl s)
  · exact refl s

theorem offerTarget (s : State) (y : Sub) (c : Fin 3) (g : Frame) : TextsOffered f x s (s.offerTarget y c g) := by
  unfold State.offerTarget
  dsimp only
  split
  · have listened {m : HoMachine → HoMachine} {n o : Occ} :
        TextsOffered f x s (((s.modMachine y m).request n).request o) :=
      ((modMachine s y m).trans (request _ n)).trans (request _ o)
    exact ite (ite (listened.trans (request _ _)) listened) (refl s)
  · exact refl s

theorem measureSlot (s : State) (y : Sub) (c : Fin 3) (g : Frame) (i : Nat) (first : Bool) (l : List (Fin 18)) :
    TextsOffered f x s (s.measureSlot y c g i first l).1 := by
  unfold State.measureSlot
  split
  · split
    · next granted => exact (of_asked granted).trans (noteMeasure _ y c g _)
    · next denied => exact of_asked denied
  · split
    · exact refl s
    · split
      · next granted => exact (of_asked granted).trans (of_txu rfl rfl)
      · next denied => exact of_asked denied

theorem offerCallOpen (s : State) (y : Sub) (c : Fin 3) (g : Frame) : TextsOffered f x s (s.offerCallOpen y c g) := by
  unfold State.offerCallOpen
  split
  · exact refl s
  · next k _ =>
    exact ite (refl s) (ite ((modCall s k _).trans (request _ _)) (ite ((modCall s k _).trans (request _ _)) (refl s)))

theorem offerDecline (s : State) (y : Sub) (c : Fin 3) (g : Frame) : TextsOffered f x s (s.offerDecline y c g) := by
  unfold State.offerDecline
  split
  · exact (setDecline s y none).trans (request _ _)
  · exact refl s

theorem offerReceipts (s : State) (y : Sub) (c : Fin 3) (g : Frame) : TextsOffered f x s (s.offerReceipts y c g) :=
  (dropReceipts s y).trans (foldl (fun s _ => request s _) _ _)

/-! ### Texts in an offer (R155, R156) -/

/-- A segment is sent in the frame offered, while none is in flight. -/
theorem offerSegment (s : State) (y : Sub) (c : Fin 3) : TextsOffered f x s (s.offerSegment y c f) := by
  unfold State.offerSegment
  split
  · exact refl s
  · next i _ =>
    split
    · next due =>
      have idle : (s.side y).flight = none := by
        unfold State.segmentDue at due
        simp only [Bool.and_eq_true, Option.isNone_iff_eq_none] at due
        exact due.1.2
      have own : y = x → s.unsent x := by
        rintro rfl g h
        rw [idle] at h
        contradiction
      dsimp only
      have counted : TextsOffered f x s (s.slotUpd i false fun o => { o with attempts := o.attempts + 1 }) :=
        slotUpd s i false fun _ => ⟨rfl, rfl, rfl⟩
      split
      · next granted =>
        have asked := counted.trans (of_asked granted)
        refine asked.trans (modSide _ y (fun same => asked.unsent (own same)) ?_)
        rintro d g ⟨⟩
        exact .inr ⟨rfl, rfl⟩
      · next denied =>
        have asked := counted.trans (of_asked denied)
        exact asked.trans (attemptFailed _ y f fun same => asked.unsent (own same))
    · exact refl s

/-- The other subscription's window may close. -/
theorem offerAckWindow_other (s : State) {y : Sub} (h : y ≠ x) (g : Frame) : TextsOffered f x s (s.offerAckWindow y g) := by
  unfold State.offerAckWindow
  split
  · exact attemptFailed s y _ fun same => absurd same h
  · exact refl s

end TextsOffered

/-! ### An offer, up to the window and after it -/

/-- What a subscription requests in one of slots 1 to 6, of which those listed measure, with the records granted a MEASURE. -/
def State.offerSlot (x : Sub) (c : Fin 3) (f : Frame) (slots : List Nat) (a : State × List (Fin 18)) (i : Nat) :
    State × List (Fin 18) :=
  let s := (a.1.offerListen x c f i).offerCallSlot x c f i
  if slots.contains i then s.measureSlot x c f i (slots.head? == some i) a.2 else (s, a.2)

/-- What a subscription requests of its serving context's frame once its acknowledgement window has been looked at. -/
def State.offerRest (s : State) (x : Sub) (c : Fin 3) (f : Frame) : State :=
  let s := s.offerSuspended x c f
  if executing (s.machine x).state then s
  else
    let s := s.offerBeacon x c f
    let slots := if (s.sub x).state = .connected then s.measuringSlots x else []
    let a := [1, 2, 3, 4, 5, 6].foldl (State.offerSlot x c f slots) (s, [])
    ((((a.1.offerCallOpen x c f).offerDecline x c f).offerReceipts x c f).offerSegment x c f)

theorem offerServing_eq (s : State) (x : Sub) (c : Fin 3) (f : Frame) :
    s.offerServing x c f = ((s.offerReportTimer x f).offerAckWindow x f).offerRest x c f := rfl

namespace TextsOffered

variable {f : Frame} {x : Sub}

theorem offerSlot (y : Sub) (c : Fin 3) (g : Frame) (l : List Nat) (p : State × List (Fin 18)) (i : Nat) :
    TextsOffered f x p.1 (State.offerSlot y c g l p i).1 :=
  have slot : TextsOffered f x p.1 ((p.1.offerListen y c g i).offerCallSlot y c g i) :=
    (offerListen p.1 y c g i).trans (offerCallSlot _ y c g i)
  keeps_ite_fst (P := TextsOffered f x p.1) (slot.trans (measureSlot _ y c g i _ _)) slot

theorem offerRest (s : State) (y : Sub) (c : Fin 3) : TextsOffered f x s (s.offerRest y c f) := by
  unfold State.offerRest
  have suspended := offerSuspended (f := f) (x := x) s y c f
  have listened := suspended.trans (offerBeacon _ y c f)
  have slots := fun l => keeps_foldl_pair (P := TextsOffered f x s) (f := State.offerSlot y c f l) (b := [])
    [1, 2, 3, 4, 5, 6] (fun i _ p hp => hp.trans (offerSlot y c f l p i)) listened
  exact ite suspended ((slots _).trans
    ((((offerCallOpen _ y c f).trans (offerDecline _ y c f)).trans (offerReceipts _ y c f)).trans (offerSegment _ y c)))

theorem offerSub_other (s : State) {y : Sub} (h : y ≠ x) (c : Fin 3) : TextsOffered f x s (s.offerSub y c f) := by
  unfold State.offerSub
  have served : TextsOffered f x s (if (s.ctx c).hasUser .serving y = true then s.offerServing y c f else s) :=
    ite (((offerReportTimer s y f).trans (offerAckWindow_other _ h f)).trans (offerRest _ y c)) (refl s)
  exact ite (served.trans (offerTarget _ y c f)) served

end TextsOffered

/-- The window of the head in slot `i` is open, its segment `g` sent, and a withdraw noted at `u` is pending or settled. -/
structure WindowOpen (u : State) (x : Sub) (i : Fin 8) (g : Flight) (t : State) : Prop where
  now    : t.now = u.now
  head   : t.head x = some i
  flight : (t.side x).flight = some g
  slot   : (u.slot i).withdraw = true → (t.slot i).withdraws u.now

/-- The window has closed in an offer of frame `f`: a segment in flight is one of that frame, and a withdraw noted at `u` is
settled. -/
structure WindowClosed (u : State) (f : Frame) (x : Sub) (i : Fin 8) (t : State) : Prop where
  now    : t.now = u.now
  flight : ∀ g, (t.side x).flight = some g → g.frame = f ∧ g.sent = false
  slot   : (u.slot i).withdraw = true → (t.slot i).withdrawnAt u.now

section
variable {u s t : State} {f : Frame} {x : Sub} {i : Fin 8} {g : Flight}

theorem WindowOpen.offered (h : WindowOpen u x i g s) (sent : g.sent = true) (offer : TextsOffered f x s t) :
    WindowOpen u x i g t := by
  have side : t.side x = s.side x := offer.waits fun none => by
    have unsent := none g h.flight
    rw [sent] at unsent
    contradiction
  exact ⟨offer.now.trans h.now, (head_of_side side).trans h.head, side ▸ h.flight,
    fun pending => (h.now ▸ offer.slot i).withdraws (h.slot pending)⟩

theorem WindowClosed.offered (h : WindowClosed u f x i s) (offer : TextsOffered f x s t) : WindowClosed u f x i t :=
  ⟨offer.now.trans h.now, fun g flies => (offer.flight g flies).elim (h.flight g) id,
    fun pending => (h.now ▸ offer.slot i).1 (h.slot pending)⟩

/-- A failed attempt closes the window (R156, R160). -/
theorem WindowOpen.attemptFailed (h : WindowOpen u x i g s) (e : Frame) : WindowClosed u f x i (s.attemptFailed x e) := by
  refine ⟨(State.now_of_outer (outer_attemptFailed s x e)).trans h.now, fun g' flies => ?_, fun noted => ?_⟩
  · rw [flight_attemptFailed e h.head] at flies
    contradiction
  · rcases h.slot noted with pending | done
    · rw [slot_attemptFailed_of_withdraw e h.head pending]
      exact ⟨rfl, h.now⟩
    · exact (h.now ▸ withdrawKept_attemptFailed s x e i).1 done

/-- The event that offers the closing frame closes the window (R156). -/
theorem WindowOpen.offerAckWindow (h : WindowOpen u x i g s) (sent : g.sent = true)
    (closes : atOrAhead f (g.frame + 6) = true) : WindowClosed u f x i (s.offerAckWindow x f) := by
  have closing : s.windowClosesAt x f = some g.frame := by
    unfold State.windowClosesAt
    rw [h.flight]
    exact if_pos (by rw [sent]; exact closes)
  unfold State.offerAckWindow
  rw [closing]
  exact h.attemptFailed _

/-- So it does where the subscription is served by the event's context. -/
theorem WindowOpen.offerSub (h : WindowOpen u x i g s) (sent : g.sent = true) (closes : atOrAhead f (g.frame + 6) = true)
    {c : Fin 3} (served : (s.ctx c).hasUser .serving x = true) : WindowClosed u f x i (s.offerSub x c f) := by
  have closed : WindowClosed u f x i (s.offerServing x c f) := by
    rw [offerServing_eq]
    exact ((h.offered sent (TextsOffered.offerReportTimer (f := f) s x f)).offerAckWindow sent closes).offered
      (TextsOffered.offerRest _ x c)
  unfold State.offerSub
  rw [if_pos served]
  exact closed.offered (TextsOffered.ite (TextsOffered.offerTarget _ x c f) (TextsOffered.refl _))

end

/-! ### The whole event -/

/-- The users of context `c` stand. -/
def State.usersStand (c : Fin 3) (us : List User) (t : State) : Prop := (t.ctx c).users = us

theorem offerSteady_usersStand (c : Fin 3) (us : List User) : OfferSteady (State.usersStand c us) where
  txu h := h
  clu h := h
  raise h := h
  counts _ h := h
  rpl _ h := h
  sbc h := h
  cmu h := h
  mbu h := h
  pwc h := h
  marks {s d f} only h := by
    unfold State.usersStand at *
    by_cases here : c = d
    · subst here
      rw [State.ctx_modCtx_same, only]
      exact h
    · rwa [State.ctx_modCtx_other s here]

theorem hasUser_of_servingCtx {s : State} {x : Sub} {c : Fin 3} (serving : s.servingCtx x = some c) :
    (s.ctx c).hasUser .serving x = true := 
  List.find?_some (p := fun c => (s.ctx c).hasUser .serving x) serving

/-- A planning event that offers the closing frame of the subscription's own cell closes the window. -/
theorem windowClosed_offer {u : State} {c : Fin 3} {f : Frame} {x : Sub} {i : Fin 8} {g : Flight} (quiet : u.tmu.deferred = [])
    (serving : u.servingCtx x = some c) (unstaged : (u.ctx c).staged = none) (head : u.head x = some i)
    (flight : (u.side x).flight = some g) (sent : g.sent = true) (closes : atOrAhead f (g.frame + 6) = true) :
    WindowClosed u f x i (u.offer c f) := by
  rw [offer_of_none c f quiet]
  generalize planned : (u.modCtx c fun t => t.planned f) = p
  have here : p.ctx c = (u.ctx c).planned f := by rw [← planned, State.ctx_modCtx_same]
  have handed : p.handStaged c f = p := by
    unfold State.handStaged
    rw [here, show ((u.ctx c).planned f).staged = none from unstaged]
  rw [handed]
  have start : WindowOpen u x i g (p.offerSeek c f) :=
    WindowOpen.offered (s := p) (planned ▸ ⟨rfl, head, flight, .inl⟩) sent (f := f) (TextsOffered.requestSeek p _ _ _)
  have users : State.usersStand c (u.ctx c).users (p.offerSeek c f) :=
    (offerSteady_usersStand c _).requestSeek rfl (by rw [State.usersStand, here]; rfl)
  have serves {t : State} (h : State.usersStand c (u.ctx c).users t) : (t.ctx c).hasUser .serving x = true := by
    unfold Ctx.hasUser
    rw [h]
    exact hasUser_of_servingCtx serving
  cases x with
  | a => exact (start.offerSub sent closes (serves users)).offered (TextsOffered.offerSub_other _ (by decide) c)
  | b =>
    exact (start.offered sent (TextsOffered.offerSub_other _ (by decide) c)).offerSub sent closes
      (serves ((offerSteady_usersStand c _).offerSub users))

/-- No context goes FREE by an offer. -/
theorem offerSteady_unfreed : OfferSteady fun t => t.tmu.freed = false where
  txu h := h
  clu h := h
  raise h := h
  counts _ h := h
  rpl _ h := h
  sbc h := h
  cmu h := h
  mbu h := h
  pwc h := h
  marks _ h := h

theorem unfreed_offer {u : State} (c : Fin 3) (f : Frame) (marks : u.marksOk = true) (quiet : u.tmu.deferred = []) :
    (u.offer c f).tmu.freed = false := by
  rw [offer_of_none c f quiet]
  exact offerSteady_unfreed.offers (unfreed_of_marksOk marks).1

end Sys2Proof.Machine

open Sys2Proof Sys2Proof.Machine

/-- Settles O51: at its own row the window closes by a failed attempt alone; at the planning event the attempt fails as well, and
what the event asks for after it can put a segment of the offered frame in flight, but cannot undo a withdraw settled. -/
theorem ackWindowCloses : Obligations.AckWindowCloses := by
  refine ⟨?_, ?_⟩
  · intro s u dt x i g time working marks head flight sent reached
    refine ⟨_, execAckWindowClose_of_reached time working flight sent reached, ?_⟩
    have unfreed : (u.closeWindow x g.frame).tmu.freed = false :=
      (congrArg Tmu.freed ((steady_tmu u.tmu).attemptFailed rfl)).trans (unfreed_of_marksOk marks).1
    obtain ⟨side, slot⟩ := texts_finish_of_unfreed (s0 := u) unfreed
    rw [side, slot, State.closeWindow]
    refine ⟨flight_attemptFailed _ head, fun pending => ?_, fun kept => plan_attemptFailed_of_kept _ head kept,
      fun kept => ?_⟩
    · rw [slot_attemptFailed_of_withdraw _ head pending]
      exact ⟨rfl, rfl⟩
    · rw [slot_attemptFailed_of_kept _ head kept]
      exact ⟨rfl, rfl, rfl⟩
  · intro s u dt x i c f g time working marks quiet due serving unstaged head flight sent closes
    refine ⟨_, execPlanningEvent_of_due time working due, ?_⟩
    obtain ⟨side, slot⟩ := texts_finish_of_unfreed (s0 := u) (unfreed_offer c f marks quiet)
    rw [side, slot]
    have closed := windowClosed_offer quiet serving unstaged head flight sent closes
    exact ⟨closed.flight, closed.slot⟩

end

section
/-! SUPPORT. Predicates that speak of no block's records: of the power controller, of the host port and of the pins alone. What
the blocks do in their own records, and the PENDING bits they set, cannot disturb them, so every operation of the blocks keeps
them (chapters 2 to 9). -/

namespace Sys2Proof.Machine

theorem keeps_when {P : State → Prop} {c : Prop} [Decidable c] {s t : State} (turn : P s → P t) (h : P s) :
    P (if c then t else s) := keeps_ite (turn h) h

/-- The predicate is closed under whatever the blocks but the power controller write, and under the PENDING bits set. -/
structure BlockSteady (P : State → Prop) : Prop extends FreeSteady P where
  tmu  : ∀ {s : State} {v : Tmu}, P s → P { s with tmu := v }
  sbc  : ∀ {s : State} {v : Pair SbcX}, P s → P { s with sbc := v }
  plan : ∀ {s : State} {v : Rpl}, P s → P { s with rpl := v }

/-- Of the host port, the power controller and the pins, a block's operations set PENDING bits alone. -/
theorem blockSteady_of {Q : Exm → Pwc → Pins → Prop}
    (raised : ∀ {e : Exm} {w : Pwc} {p : Pins} {a : Area}, Q e w p → Q { e with attn := e.attn ||| areaMask a } w p) :
    BlockSteady fun t => Q t.exm t.pwc t.pins where
  txu h := h
  clu h := h
  raise h := raised h
  counts _ h := raised h
  rpl _ h := h
  cmu h := h
  mbu h := h
  wait h := h
  ctx _ h := h
  tmu h := h
  sbc h := h
  plan h := h

namespace BlockSteady

variable {P : State → Prop} (B : BlockSteady P) {s : State}
include B

theorem service (x : Sub) : ServiceSteady x P where
  toFreeSteady := B.toFreeSteady
  recede _ := B.sbc

theorem alloc (x : Sub) : AllocSteady x P := (B.service x).toAlloc

/-! ### Updates, users and requests that wait (R19 to R22) -/

theorem modCtx {c : Fin 3} {f : Ctx → Ctx} (h : P s) : P (s.modCtx c f) := B.tmu h
theorem modSbc {x : Sub} {f : SbcX → SbcX} (h : P s) : P (s.modSbc x f) := B.sbc h
theorem subUpd {x : Sub} {f : SubRec → SubRec} (h : P s) : P (s.subUpd x f) := B.raise (B.sbc h)
theorem subSet {x : Sub} {f : SubRec → SubRec} (h : P s) : P (s.subSet x f) := keeps_ite h (B.subUpd h)
theorem upWrite {k : Fin 4} {f : Frame} {o : UpOutcome} (h : P s) : P (s.upWrite k f o) := B.callStatusUpd h
theorem becomeServing {c : Fin 3} {r : Role} {x : Sub} (h : P s) : P (s.becomeServing c r x) := B.withdrawSeek (B.modCtx h)

theorem allocate {r : Role} {x : Sub} {k : Key} (h : P s) : P (s.allocate r x k) := AllocSteady.allocate B.alloc h
theorem retryAt {c : Fin 3} (h : P s) : P (s.retryAt c) := AllocSteady.retry B.alloc h
theorem retried (h : P s) : P s.retried := AllocSteady.retried B.alloc h

theorem dropProbes {x : Sub} (h : P s) : P (s.dropProbes x) := (B.alloc x).dropProbes h
theorem beginPass {x : Sub} (h : P s) : P (s.beginPass x) := (B.alloc x).beginPass h
theorem nextAttempt {x : Sub} (h : P s) : P (s.nextAttempt x) := (B.alloc x).nextAttempt h
theorem endListen {x : Sub} (h : P s) : P (s.endListen x) := (B.service x).endListen h
theorem enterSearching {x : Sub} {c : ServiceCause} (h : P s) : P (s.enterSearching x c) := (B.service x).enterSearching h
theorem dropCall {x : Sub} {c : CallCause} {v : ServiceCause} (h : P s) : P (s.dropCall x c v) := (B.service x).dropCall h
theorem failHandover {x : Sub} (h : P s) : P (s.failHandover x) := B.toFreeSteady.failHandover (fun _ => B.dropCall h) h

theorem goOff {x : Sub} (h : P s) : P (s.goOff x) :=
  (B.service x).goOff_of_left (B.subUpd ((B.service x).leaveCell h))

/-! ### Cell records and samples (chapter 5) -/

theorem barMark {x : Sub} {k : Key} (h : P s) : P (s.barMark x k) := by
  unfold State.barMark
  split
  · exact B.cellUpd h
  · exact h

theorem quietMark {x : Sub} {k : Key} {t : Nat} (h : P s) : P (s.quietMark x k t) := by
  unfold State.quietMark
  split
  · exact B.cellUpd h
  · exact h

theorem syncReject {x : Sub} {k : Key} (h : P s) : P (s.syncReject x k) := by
  unfold State.syncReject
  split
  · exact B.cellSet h
  · exact h

theorem sample {x : Sub} {k : Key} {raw time : Nat} {served : Bool} (h : P s) : P (s.sample x k raw time served) := by
  unfold State.sample
  split
  · exact h
  · exact B.cellUpd h

theorem clearFailRun {x : Sub} (h : P s) : P (s.clearFailRun x) := by
  unfold State.clearFailRun
  split
  · exact B.cellSet h
  · exact h

theorem giveTarget {x : Sub} {r : Fin 18} (h : P s) : P (s.giveTarget x r) := keeps_ite h (B.setRole (B.dropTarget h))

theorem follow {x : Sub} {old new : Fin 18} (h : P s) : P (s.follow x old new) := by
  unfold State.follow State.followMeasured
  exact B.modMbu (keeps_foldl allCtx (fun _ _ _ ht => B.modCtx ht) (keeps_when B.subUpd (B.raiseIf _ h)))

theorem takeGuest {x : Sub} {g : Fin 18} {f : CellRec → CellRec} (h : P s) : P (s.takeGuest x g f) := B.cellUpd (B.modMbu h)

theorem targetRecord {x : Sub} {k : Key} (h : P s) : P (s.targetRecord x k) := by
  unfold State.targetRecord
  split
  · exact B.giveTarget h
  · exact B.takeGuest h

theorem completeProbe {x : Sub} {r : Fin 18} {level : Option Nat} (h : P s) : P (s.completeProbe x r level) :=
  (B.alloc x).completeProbe h

/-! ### Service: areas, windows, camping, connecting, and the end of a call (R66, R73, R75, R107, R147) -/

theorem areaTest {x : Sub} {a : BitVec 12} (h : P s) : P (s.areaTest x a) := keeps_ite h (B.subUpd (B.modSbc h))
theorem nameWindow {x : Sub} {f : Frame} (h : P s) : P (s.nameWindow x f) := B.modSbc h
theorem nameWindowIn {x : Sub} {c : Fin 3} {f : Frame} (h : P s) : P (s.nameWindowIn x c f) := B.nameWindow h

theorem camp {x : Sub} {r : Fin 18} {c : Fin 3} {f : Frame} {a : BitVec 12} (h : P s) : P (s.camp x r c f a) := by
  unfold State.camp State.dropCollecting
  refine B.raise (B.raise (B.dropReasm (B.textsBack (B.nameWindowIn (B.modSbc (B.subUpd (B.areaTest ?_)))))))
  exact B.zeroDwell (B.setRole (B.dropServing (B.becomeServing h)))

theorem connect {x : Sub} (h : P s) : P (s.connect x) :=
  B.resetMachine (B.clearFailRun (B.subUpd (B.dropReselection (B.modSbc (B.withdraw (B.endListen h))))))

theorem backToCamped {x : Sub} (h : P s) : P (s.backToCamped x) := by
  unfold State.backToCamped
  refine keeps_ite (B.goOff h) (keeps_when B.textsBack (B.nameWindow (B.clearFailRun (B.subUpd ?_))))
  exact B.resetMachine (B.dropTarget (B.removeRole h))

theorem endCall {k : Fin 4} {cause : CallCause} {byte : BitVec 8} (h : P s) : P (s.endCall k cause byte) :=
  keeps_ite (B.backToCamped (B.closeCall h)) (B.closeCall h)

theorem addHistory {x : Sub} {old new : BitVec 16} {k : ChangeKind} (h : P s) : P (s.addHistory x old new k) := B.subUpd h

theorem reselect {x : Sub} {c : Fin 3} {k : Key} {f : Frame} {a : BitVec 12} (h : P s) : P (s.reselect x c k f a) := by
  unfold State.reselect
  split
  · exact B.dropReselection h
  · dsimp only
    refine B.raise (B.raise (B.dropReceipts (B.dropReasm (keeps_when B.textsBack (B.abandon (B.nameWindowIn
      (B.endListen (B.addHistory (B.subUpd (B.areaTest ?_))))))))))
    exact B.zeroDwell (B.setRole (B.dropServing (B.becomeServing (B.withdraw (B.removeRole (B.modMbu h))))))

end BlockSteady
end Sys2Proof.Machine
end

section
/-! SUPPORT. The handovers and the offers of a planning event cannot disturb such a predicate either (chapters 3, 7 and 8). -/

namespace Sys2Proof.Machine

namespace BlockSteady

variable {P : State → Prop} (B : BlockSteady P) {s : State}
include B

/-! ### Handovers (R112 to R127) -/

theorem startReport {x : Sub} {t : Trigger} (h : P s) : P (s.startReport x t) := by
  unfold State.startReport
  exact B.modMachine (B.giveTarget h)

theorem takeEvaluation {x : Sub} {t : Option Trigger} (h : P s) : P (s.takeEvaluation x t) := by
  unfold State.takeEvaluation
  refine keeps_ite ?_ h
  split
  · exact keeps_when B.startReport (B.modMachine h)
  · exact B.modMachine h

theorem reportTimer {x : Sub} {f : Frame} (h : P s) : P (s.reportTimer x f) := by
  have gaveUp : P (s.giveUp x) := by
    unfold State.giveUp
    split
    · exact B.resetMachine (B.cellUpd h)
    · exact B.resetMachine h
  unfold State.reportTimer
  refine keeps_ite ?_ gaveUp
  split
  · exact B.modMachine h
  · exact h

theorem takeOrder {x : Sub} {c : Fin 3} {f : Frame} {o : Order} (h : P s) : P (s.takeOrder x c f o) := by
  unfold State.takeOrder
  dsimp only
  split
  · exact h
  · refine keeps_ite (B.raise (B.pauseHead (B.subUpd (B.callUpd (B.modMachine (B.targetRecord ?_)))))) h
    split
    · exact keeps_ite h (B.dropTarget h)
    · exact B.dropTarget h

theorem leaveOld {x : Sub} {k : Fin 4} {c : Fin 3} {f : Frame} {o : Order} (h : P s) : P (s.leaveOld x k c f o) := by
  unfold State.leaveOld
  refine keeps_when (fun ht => B.failHandover (B.tmu ht)) (B.allocate (B.tmu (B.withdraw (B.abandon ?_))))
  exact B.suspendVoice (B.modMachine h)

theorem releaseOnSlot {x : Sub} {k : Fin 4} (h : P s) : P (s.releaseOnSlot x k) := keeps_ite h (B.modCall h)
theorem handSlots {g : Staged} (h : P s) : P (s.handSlots g) := B.releaseOnSlot (B.callUpd h)
theorem stage {c : Fin 3} {g : Staged} (h : P s) : P (s.stage c g) := keeps_ite (B.modCtx h) (B.handSlots (B.modCtx h))

theorem revertHandover {x : Sub} (h : P s) : P (s.revertHandover x) := by
  unfold State.revertHandover
  split
  · exact h
  · exact B.textsBack (B.subUpd (B.callUpd (B.releaseOnSlot (B.modMachine h))))

theorem serveKey {x : Sub} {k : Key} (h : P s) : P (s.serveKey x k) := by
  unfold State.serveKey
  dsimp only
  split
  · exact B.zeroDwell (B.subUpd (B.setRole (B.dropServing h)))
  · exact B.zeroDwell (B.subUpd (B.dropServing h))

theorem areaTold {x : Sub} {a : Option (BitVec 12)} (h : P s) :
    P (match a with | some a => s.areaTest x a | none => s) := by
  split
  · exact B.areaTest h
  · exact h

theorem commitHandover {x : Sub} {c : Fin 3} {k : Fin 4} {o : Order} (h : P s) : P (s.commitHandover x c k o) := by
  unfold State.commitHandover State.dropCollecting
  refine B.raise (B.dropReceipts (B.dropReasm (B.textsBack (B.resetMachine (B.callUpd (B.modCall (B.addHistory
    (B.subUpd (B.areaTold (B.serveKey (B.becomeServing (B.removeRole ?_))))))))))))
  exact B.modCall (B.flush (B.withdraw (B.stage h)))

theorem settleCamped {x : Sub} {changed : Bool} (h : P s) : P (s.settleCamped x changed) := by
  unfold State.settleCamped State.dropCollecting
  refine keeps_when (fun ht => B.dropReceipts (B.dropReasm ht)) (B.textsBack (B.nameWindow (B.clearFailRun (B.subUpd ?_))))
  exact B.resetMachine (B.dropTarget h)

theorem stopHandover {x : Sub} {k : Fin 4} {cause : CallCause} {byte : BitVec 8} (h : P s) :
    P (s.stopHandover x k cause byte) := by
  have ended : ∀ p, P ((s.closeCall k cause byte).withdraw x p) := fun _ => B.withdraw (B.closeCall h)
  unfold State.stopHandover
  refine keeps_ite (B.goOff (ended _)) (keeps_ite (B.settleCamped (B.removeRole (ended _))) ?_)
  split
  · exact keeps_ite (B.settleCamped (B.areaTold (B.serveKey (B.becomeServing (B.removeRole (ended _))))))
      (B.enterSearching (ended _))
  · exact B.enterSearching (ended _)

theorem targetFound {x : Sub} {k : Key} {f : Frame} {barred : Bool} {a : BitVec 12} (h : P s) :
    P (s.targetFound x k f barred a) := by
  unfold State.targetFound
  exact keeps_when B.modMachine (keeps_when B.barMark h)

/-! ### Requests and their answers (R37) -/

theorem ofAsk {t : State} {n : Occ} {a : Answer} (answer : s.ask n = (t, a)) (h : P s)
    (new : n.started = false := by rfl) : P t := by
  have asked := B.ask new h
  rwa [answer] at asked

/-! ### A planning event's offer: beacons, windows and the call (R68, R69, R113 to R115, R120, R141 to R150) -/

theorem offerWindow {x : Sub} {c : Fin 3} {f : Frame} (h : P s) : P (s.offerWindow x c f) := by
  unfold State.offerWindow
  split
  · exact h
  · exact keeps_ite (B.nameWindow (B.request rfl h)) (keeps_when B.nameWindow h)

theorem offerBeacon {x : Sub} {c : Fin 3} {f : Frame} (h : P s) : P (s.offerBeacon x c f) := by
  unfold State.offerBeacon
  split
  · exact B.request rfl h
  · exact keeps_when (B.request rfl) h
  · exact keeps_ite (B.offerWindow h) (keeps_when (B.request rfl) (B.offerWindow h))
  · exact h

theorem offerSuspended {x : Sub} {c : Fin 3} {f : Frame} (h : P s) : P (s.offerSuspended x c f) := by
  unfold State.offerSuspended
  split
  · exact keeps_when (fun ht => B.expectDown (B.upWrite ht)) h
  · exact h

theorem offerAckWindow {x : Sub} {f : Frame} (h : P s) : P (s.offerAckWindow x f) := by
  unfold State.offerAckWindow
  split
  · exact B.attemptFailed h
  · exact h

theorem offerDown {x : Sub} {c : Fin 3} {f : Frame} {k : Fin 4} (h : P s) : P (s.offerDown x c f k) := by
  unfold State.offerDown
  dsimp only
  split
  · next answer => exact B.expectDown (B.ofAsk answer h)
  · next answer => exact B.expectDown (B.ofAsk answer h)

theorem askUp {x : Sub} {c : Fin 3} {f : Frame} {k : Fin 4} {kind : Kind} {b : Uplink} (h : P s) :
    P (s.askUp x c f k kind b) := by
  unfold State.askUp
  dsimp only
  split
  · next answer => exact B.upWrite (B.ofAsk answer h)
  · next answer => exact B.upWrite (B.ofAsk answer h)

theorem offerUp {x : Sub} {c : Fin 3} {f : Frame} {k : Fin 4} (h : P s) : P (s.offerUp x c f k) := by
  unfold State.offerUp
  split
  · exact B.askUp (B.modMachine h)
  · exact keeps_ite (B.askUp (B.modCall h)) (B.askUp h)

theorem offerCallSlot {x : Sub} {c : Fin 3} {f : Frame} {i : Nat} (h : P s) : P (s.offerCallSlot x c f i) := by
  unfold State.offerCallSlot
  split
  · exact h
  · exact keeps_ite h (keeps_ite (keeps_when (B.request rfl) h)
      (keeps_when (fun _ => keeps_ite (B.offerDown h) (keeps_when B.offerUp h)) h))

theorem offerListen {x : Sub} {c : Fin 3} {f : Frame} {i : Nat} (h : P s) : P (s.offerListen x c f i) := by
  unfold State.offerListen
  split
  · exact keeps_when (B.request rfl) h
  · exact h

theorem offerTarget {x : Sub} {c : Fin 3} {f : Frame} (h : P s) : P (s.offerTarget x c f) := by
  unfold State.offerTarget
  dsimp only
  split
  · exact keeps_when (fun _ => keeps_when (B.request rfl) (B.request rfl (B.request rfl (B.modMachine h)))) h
  · exact h

/-! ### Measurements (R89 to R91) -/

theorem noteMeasure {x : Sub} {c : Fin 3} {f : Frame} {r : Fin 18} (h : P s) : P (s.noteMeasure x c f r) := B.tmu h

theorem measureSlot {x : Sub} {c : Fin 3} {f : Frame} {i : Nat} {first : Bool} {g : List (Fin 18)} (h : P s) :
    P (s.measureSlot x c f i first g).1 := by
  unfold State.measureSlot
  split
  · split
    · next answer => exact B.noteMeasure (B.ofAsk answer h)
    · next answer => exact B.ofAsk answer h
  · split
    · exact h
    · split
      · next answer => exact B.noteMeasure (B.modTable (B.ofAsk answer h))
      · next answer => exact B.ofAsk answer h

theorem batch {x : Sub} {c : Fin 3} {f : Frame} (h : P s) : P (s.batch x c f) :=
  keeps_foldl_pair _ (fun _ _ _ hp => B.measureSlot hp) (B.subSet h)

/-! ### The open section, and the offer as a whole (R14, R28, R31, R32, R34) -/

theorem offerCallOpen {x : Sub} {c : Fin 3} {f : Frame} (h : P s) : P (s.offerCallOpen x c f) := by
  unfold State.offerCallOpen
  split
  · exact h
  · exact keeps_ite h (keeps_ite (B.request rfl (B.modCall h)) (keeps_when (fun ht => B.request rfl (B.modCall ht)) h))

theorem offerDecline {x : Sub} {c : Fin 3} {f : Frame} (h : P s) : P (s.offerDecline x c f) := by
  unfold State.offerDecline
  split
  · exact B.request rfl (B.setDecline h)
  · exact h

theorem offerReceipts {x : Sub} {c : Fin 3} {f : Frame} (h : P s) : P (s.offerReceipts x c f) :=
  keeps_foldl _ (fun _ _ _ ht => B.request rfl ht) (B.dropReceipts h)

theorem offerSegment {x : Sub} {c : Fin 3} {f : Frame} (h : P s) : P (s.offerSegment x c f) := by
  unfold State.offerSegment
  split
  · exact h
  · refine keeps_when (fun _ => ?_) h
    dsimp only
    split
    · next answer => exact B.modSide (B.ofAsk answer (B.slotUpd h))
    · next answer => exact B.attemptFailed (B.ofAsk answer (B.slotUpd h))

theorem offerServing {x : Sub} {c : Fin 3} {f : Frame} (h : P s) : P (s.offerServing x c f) := by
  unfold State.offerServing
  have timed := B.offerSuspended (x := x) (c := c) (f := f) (B.offerAckWindow (x := x) (f := f)
    (keeps_when (c := (s.machine x).expiresAt f = true) (B.reportTimer (x := x) (f := f)) h))
  refine keeps_ite timed (B.offerSegment (B.offerReceipts (B.offerDecline (B.offerCallOpen ?_))))
  exact keeps_foldl_pair _ (fun _ _ p hp => keeps_ite_fst (B.measureSlot (B.offerCallSlot (B.offerListen hp)))
    (B.offerCallSlot (B.offerListen hp))) (B.offerBeacon timed)

theorem offerSub {x : Sub} {c : Fin 3} {f : Frame} (h : P s) : P (s.offerSub x c f) := by
  unfold State.offerSub
  exact keeps_when B.offerTarget (keeps_when B.offerServing h)

theorem handStaged {c : Fin 3} {f : Frame} (h : P s) : P (s.handStaged c f) := by
  unfold State.handStaged
  split
  · exact keeps_when (fun ht => B.handSlots (B.modCtx ht)) h
  · exact h

theorem offer {c : Fin 3} {f : Frame} (h : P s) : P (s.offer c f) := by
  unfold State.offer State.offerSeek
  exact keeps_when (fun ht => B.offerSub (B.offerSub (B.requestSeek rfl (B.handStaged ht)))) (B.retryAt (B.modCtx h))

theorem seekEvent {c : Fin 3} (h : P s) : P (s.seekEvent c) := B.requestSeek rfl (B.retryAt (B.modCtx h))

end BlockSteady
end Sys2Proof.Machine
end

section
/-! SUPPORT. Nor can the reports of the radio link port and the takes of the scans (chapters 2 to 9 and 11), but for what the power
controller has of them: the drift sample of a wake (R33, R176), the scan-pending mask and the fault record (R184, R185). -/

namespace Sys2Proof.Machine

namespace BlockSteady

variable {P : State → Prop} (B : BlockSteady P) {s : State}
include B

/-! ### Pagings, acknowledgements and the ranking of a serving beacon (R7, R8, R70, R71, R97, R106, R109, R138) -/

theorem incomingCall {x : Sub} {n : Nat} (h : P s) : P (s.incomingCall x n) := by
  unfold State.incomingCall
  split
  · exact h
  · split
    · exact B.callUpd (B.modCall (B.takeRef h))
    · exact B.subSet h

theorem extendListen {x : Sub} {f : Frame} (h : P s) : P (s.extendListen x f) := by
  unfold State.extendListen
  split
  · exact keeps_when B.subUpd h
  · exact h

theorem takePaging {x : Sub} {b : Beacon} {r : PagingReason} (h : P s) : P (s.takePaging x b r) := by
  unfold State.takePaging
  split
  · exact B.incomingCall (B.subUpd h)
  · exact keeps_when (fun ht => keeps_ite (B.extendListen ht) (B.subUpd ht)) (B.subUpd h)

theorem takePagings {x : Sub} {b : Beacon} (h : P s) : P (s.takePagings x b) :=
  keeps_when B.takePaging (keeps_when B.takePaging h)

theorem takeAcks {x : Sub} {b : Beacon} (h : P s) : P (s.takeAcks x b) := keeps_foldl _ (fun _ _ _ ht => B.takeAck ht) h

theorem dwellStep {x : Sub} {e : Nat} {w : Bool} (h : P s) : P (s.dwellStep x e w) :=
  keeps_foldl allRecs (fun _ _ _ ht => keeps_ite (B.cellSet ht) (B.cellSet ht)) h

theorem evaluate {x : Sub} {w : Bool} (h : P s) : P (s.evaluate x w).1 := B.dwellStep (B.subUpd h)

theorem startReselection {x : Sub} {t : Trigger} (h : P s) : P (s.startReselection x t) :=
  keeps_when (fun ht => B.allocate (B.modMbu ht)) h

theorem rankWindow {x : Sub} {w : Bool} (h : P s) : P (s.rankWindow x w) := by
  have woken : P (s.newWake x) := keeps_when B.dropReselection (B.modMbu h)
  unfold State.rankWindow
  refine keeps_ite ?_ (B.zeroDwell woken)
  have ranked := B.evaluate (x := x) (w := w) woken
  split
  · next found => rw [found] at ranked; exact B.startReselection ranked
  · next none => rw [none] at ranked; exact ranked

theorem mobilityBeacon {o : Occ} {x : Sub} {b : Beacon} (h : P s) : P (s.mobilityBeacon o x b) := by
  unfold State.mobilityBeacon
  refine keeps_ite (B.revertHandover h) ?_
  have tested := B.areaTest (x := x) (a := b.area) h
  dsimp only
  split
  · exact keeps_when (fun ht => B.takeEvaluation (B.evaluate ht)) tested
  · exact keeps_when B.rankWindow tested
  · exact tested

theorem serveBeacon {o : Occ} {b : Beacon} {x : Sub} (h : P s) : P (s.serveBeacon o b x) :=
  keeps_when (fun ht => B.mobilityBeacon (B.takeAcks (B.takePagings (keeps_when B.subSet ht)))) h

/-! ### A BEACON report (R4 to R6, R25, R29, R33, R65, R107, R119) -/

theorem tellFound {c : Fin 3} {k : Key} {b : Beacon} {u : User} (h : P s) : P (s.tellFound c k b u) := by
  unfold State.tellFound
  split
  · unfold State.searchFound
    split
    · exact B.removeUser h
    · exact keeps_ite (B.nextAttempt (B.removeUser (B.barMark h)))
        (keeps_ite (B.camp h) (B.nextAttempt (B.removeUser h)))
  · unfold State.verifyFound
    exact keeps_ite (B.dropReselection (B.barMark h)) (B.reselect h)
  · exact B.targetFound h
  · exact h

theorem endSeeks {c : Fin 3} (h : P s) : P (s.endSeeks c) := by
  unfold State.endSeeks
  exact keeps_foldl allSubs (fun _ _ _ ht => B.withdrawSeek ht) (B.modCtx h)

theorem sampleBeacon {o : Occ} {b : Beacon} {k : Key} {us : List User} (h : P s) : P (s.sampleBeacon o b k us) :=
  keeps_foldl allSubs (fun _ _ _ ht => keeps_when B.sample ht) h

theorem handContents {o : Occ} {b : Beacon} {k : Key} {us : List User} (h : P s) : P (s.handContents o b k us) :=
  keeps_foldl us (fun _ _ _ ht => B.tellFound ht) (B.serveBeacon (B.serveBeacon h))

theorem missBeacon {o : Occ} (h : P s) : P (s.missBeacon o) := keeps_when B.modCtx h

theorem rejectBeacon {o : Occ} (h : P s) : P (s.rejectBeacon o) :=
  B.missWindows (B.missBeacon (keeps_foldl allSubs (fun _ _ _ ht => keeps_when B.syncReject ht) h))

theorem routeBeacon (sampled : ∀ {t : State} {e : Int}, P t → P (t.driftSample e)) {o : Occ} {b : Beacon} (h : P s) :
    P (s.routeBeacon o b) := by
  have found : P (s.foundBeacon o b) := by
    unfold State.foundBeacon
    exact B.handContents (B.sampleBeacon (B.endSeeks (B.modCtx h)))
  have tracked : P (s.trackBeacon o b) := by
    unfold State.trackBeacon State.wakeSample
    exact B.handContents (B.sampleBeacon (keeps_ite (keeps_when sampled (keeps_when B.reanchor (B.modCtx h)))
      (B.endSeeks (keeps_when sampled (keeps_when B.reanchor (B.modCtx h))))))
  unfold State.routeBeacon
  exact keeps_ite h (keeps_ite (B.rejectBeacon h) (keeps_ite found (keeps_ite h
    (keeps_ite (B.missWindows (B.missBeacon h)) tracked))))

theorem beaconReport (sampled : ∀ {t : State} {e : Int}, P t → P (t.driftSample e)) {o : Occ} {b : Beacon} (h : P s) :
    P (s.beaconReport o b) :=
  keeps_foldl _ (fun _ _ _ ht => keeps_when B.batch ht) (B.concludeDone (B.routeBeacon sampled h))

/-! ### Control blocks and segments (R9 to R11, R126, R144 to R147, R164 to R166) -/

theorem endByBlock {x : Sub} {c : Fin 3} {f : Frame} {k : Fin 4} {cause : CallCause} {byte : BitVec 8} (h : P s) :
    P (s.endByBlock x c f k cause byte) := by
  have written : P (s.writeStolen k c f) := B.flush h
  unfold State.endByBlock
  exact keeps_ite (B.stopHandover written) (B.endCall written)

theorem takeAssign {x : Sub} {c : Fin 3} {k : Fin 4} {down up : Nat} {f : Frame} {t : Nat} (h : P s) :
    P (s.takeAssign x c k down up f t) := by
  unfold State.takeAssign
  dsimp only
  split
  · exact B.stage (B.callUpd (B.modCall (B.withdraw h)))
  · exact B.stage (B.callUpd (B.modCall (B.withdraw h)))
  · exact B.stage h
  · exact keeps_when B.stage h
  · exact h

theorem sendReceipt {x : Sub} {c : Fin 3} {g : Frame} {ref : Ref} {i : Fin 8} {w : Option (Fin 4)} (h : P s) :
    P (s.sendReceipt x c g ref i w) := keeps_ite (B.request rfl h) (B.txu h)

theorem deliverWaiting (h : P s) : P s.deliverWaiting := by
  have one : ∀ {t : State}, P t → P t.deliverOne := by
    intro t ht
    unfold State.deliverOne
    split
    · exact B.raise (B.txu (B.txu ht))
    · exact ht
  exact one (one (one (one h)))

theorem storeSegment {x : Sub} {c : Fin 3} {g : Frame} {r : Fin 4} {ref : Ref} {i : Fin 8} {last : Bool} {p : List Byte}
    (h : P s) : P (s.storeSegment x c g r ref i last p) := by
  have completed : ∀ {t : State}, P t → P (t.completeReasm x c g r) := by
    intro t ht
    unfold State.completeReasm
    dsimp only
    split
    · exact B.sendReceipt (B.deliverWaiting (B.modReasm ht))
    · exact B.deliverWaiting (B.modReasm ht)
  unfold State.storeSegment
  exact keeps_ite (completed (B.modReasm h)) (keeps_ite (B.modReasm h) (B.sendReceipt (B.modReasm h)))

theorem takeSegment {x : Sub} {c : Fin 3} {g : Frame} {ref : Ref} {i : Fin 8} {last : Bool} {p : List Byte} (h : P s) :
    P (s.takeSegment x c g ref i last p) := by
  have extended := B.extendListen (x := x) (f := g) h
  unfold State.takeSegment State.repeatSegment
  dsimp only
  generalize s.extendListen x g = t at extended ⊢
  split
  · exact keeps_ite extended (keeps_ite (keeps_ite (keeps_when B.sendReceipt (B.modReasm extended))
      (B.sendReceipt (B.modReasm extended))) (B.storeSegment extended))
  · split
    · exact B.storeSegment (B.modReasm extended)
    · exact B.subSet extended

theorem takeWelcome {x : Sub} {c : Fin 3} {ref : Ref} (h : P s) : P (s.takeWelcome x c ref) := by
  unfold State.takeWelcome
  dsimp only
  split
  · exact keeps_when B.commitHandover h
  · exact h

theorem takeControl {x : Sub} {c : Fin 3} {f : Frame} {t : Nat} {b : Control} (h : P s) : P (s.takeControl x c f t b) := by
  unfold State.takeControl State.takeReject State.takeRelease
  cases b with
  | assign =>
    dsimp only
    split
    · exact keeps_when B.takeAssign h
    · exact h
  | reject =>
    dsimp only
    split
    · exact keeps_when (keeps_when B.endByBlock) h
    · exact h
  | release =>
    refine keeps_ite ?_ (keeps_when (fun _ => ?_) h)
    · split
      · exact B.endByBlock h
      · exact h
    · split
      · exact B.endByBlock h
      · exact h
  | handoverOrder => exact keeps_when B.takeOrder h
  | welcome => exact B.takeWelcome h
  | reportHeard => exact keeps_when (keeps_when B.modMachine) h
  | textSegment => exact keeps_when B.takeSegment h
  | other => exact h

theorem routeBlock {o : Occ} {b : Option DownBlock} (h : P s) : P (s.routeBlock o b) := by
  have heard : P (match o.kind, o.call with
      | .rxVoice, some k => s.downOutcome k o.frame (blockOutcome b).1 (blockOutcome b).2
      | _, _ => s) := by
    split
    · exact B.downOutcome h
    · exact h
  unfold State.routeBlock
  refine keeps_ite h ?_
  dsimp only
  split
  · exact keeps_when (fun ht => keeps_foldl allSubs (fun _ _ _ hu => keeps_when B.takeControl hu) ht) heard
  · exact heard

theorem routeLevel {o : Occ} {level : Nat} (h : P s) : P (s.routeLevel o level) := by
  unfold State.routeLevel
  refine keeps_ite h ?_
  split
  · exact keeps_foldl allSubs (fun _ _ _ ht => keeps_when B.sample ht) h
  · exact keeps_foldl allSubs (fun _ _ _ ht => keeps_when B.completeProbe ht) h
  · exact h

theorem concludeSilent {o : Occ} (h : P s) : P (s.concludeSilent o) := B.conclude (B.missBeacon (B.linkUpd h))

end BlockSteady
end Sys2Proof.Machine
end

section
/-! SUPPORT. What a command of the blocks can do (R169, R185, R186): while the blocks do not work time passes and no more; while they
work it acts, and what follows every such command follows. The act writes the blocks' own records, the PENDING bits, the
scan-pending mask and the fault record, takes a drift sample, or ends a NAP. -/

namespace Sys2Proof.Machine

/-- The predicate is closed under whatever the acts of the blocks' commands write beside the blocks' own records. -/
structure CommandSteady (P : State → Prop) : Prop extends BlockSteady P where
  scan    : ∀ {s : State} {m : BitVec 9}, P s → P { s with exm := { s.exm with scan := m } }
  fault   : ∀ {s : State} {f : FaultRecord → FaultRecord}, P s → P (s.faultUpd f)
  sampled : ∀ {s : State} {e : Int}, P s → P (s.driftSample e)
  napOver : ∀ {s : State}, P s → P (s.setPower .run)

namespace BlockSteady

variable {P : State → Prop} (B : BlockSteady P) {s : State}
include B

/-! ### The takes' parts (R57, R80 to R83, R133 to R137, R153 to R159) -/

theorem enableSub {x : Sub} (h : P s) : P (s.enableSub x) := keeps_ite (B.beginPass (B.subUpd h)) (B.modSbc h)

theorem disableSub {x : Sub} (h : P s) : P (s.disableSub x) := by
  unfold State.disableSub
  split
  · exact h
  · exact B.modSbc h
  · exact B.modSbc h
  · exact B.goOff h

theorem takeSettings {x : Sub} (h : P s) : P (s.takeSettings x) := by
  unfold State.takeSettings State.ackArea
  exact keeps_ite h (keeps_ite (B.enableSub (B.subSet (B.modSbc h))) (B.disableSub (B.subSet (B.modSbc h))))

theorem takeHostRecord {x : Sub} {r : Fin 18} (h : P s) : P (s.takeHostRecord x r) := by
  unfold State.takeHostRecord State.takeStamps State.takeUse State.moveToGuest
  exact keeps_when B.completeProbe (B.modTable (B.cellSet
    (keeps_when (fun ht => B.cellUpd (keeps_when (fun hu => B.follow (B.takeGuest hu)) ht)) h)))

theorem foldGuest {x : Sub} {g : Fin 18} (h : P s) : P (s.foldGuest x g) := by
  unfold State.foldGuest
  refine keeps_when (fun ht => ?_) h
  split
  · exact B.follow (B.cellUpd (B.cellUpd ht))
  · exact ht

theorem takeTables (h : P s) : P s.takeTables := by
  unfold State.takeTables
  exact keeps_foldl allSubs (fun _ _ _ ht => keeps_foldl guestRecs (fun _ _ _ hu => B.foldGuest hu) ht)
    (keeps_foldl allSubs (fun _ _ _ ht => keeps_foldl hostRecs (fun _ _ _ hu => B.takeHostRecord hu) ht) h)

theorem cellsNotice {x : Sub} {had : Option (Key × Fin 18)} {l : List (Fin 18)} (h : P s) : P (s.cellsNotice x had l) := by
  have told : P (s.candidateNotice x had l) := by
    unfold State.candidateNotice
    split
    · exact B.dropReselection h
    · exact keeps_when B.dropReselection h
    · exact h
  unfold State.cellsNotice State.searchNotice
  refine keeps_ite h (keeps_ite (B.beginPass (B.subUpd told)) ?_)
  split
  · exact told
  · dsimp only
    split
    · exact keeps_when (fun ht => B.nextAttempt (B.removeRole ht)) (B.modSbc told)
    · exact B.modSbc told

theorem takeDial {k : Fin 4} {t : Stamp} (h : P s) : P (s.takeDial k t) := by
  unfold State.takeDial State.acceptDial
  split
  · exact B.callUpd h
  · exact keeps_ite (B.callUpd h) (keeps_ite (B.callUpd h) (keeps_ite (B.callUpd h)
      (B.callUpd (B.modCall (B.takeRef (B.connect h))))))

theorem takeAnswer {k : Fin 4} {t : Stamp} (h : P s) : P (s.takeAnswer k t) := by
  unfold State.takeAnswer
  exact keeps_ite (B.callUpd h) (keeps_ite (B.callUpd h) (keeps_ite (B.callUpd h)
    (B.callUpd (B.modCall (B.connect h)))))

theorem beginRelease {k : Fin 4} {t : Stamp} {n : NextSend} (h : P s) : P (s.beginRelease k t n) := B.callUpd (B.modCall h)

theorem takeHostRelease {k : Fin 4} {t : Stamp} (h : P s) : P (s.takeHostRelease k t) := by
  unfold State.takeHostRelease
  dsimp only
  split
  · exact B.modCall (keeps_when B.setDecline (B.closeCall h))
  · exact B.beginRelease (B.withdraw h)
  · exact B.beginRelease (B.withdraw h)
  · exact B.beginRelease (B.modMachine h)
  · exact B.beginRelease h
  · exact B.callUpd h
  · exact B.callUpd h
  · exact B.callUpd h

theorem takeCall {k : Fin 4} (h : P s) : P (s.takeCall k) := by
  have noted := B.modCall (k := k) (f := fun c => { c with notify := s.callNotify k }) h
  unfold State.takeCall
  refine keeps_ite noted ?_
  split
  · exact B.takeDial noted
  · exact B.takeAnswer noted
  · exact B.takeHostRelease noted
  · exact keeps_ite (B.callUpd noted) (B.callUpd noted)
  · exact B.callUpd noted

theorem takeSend {i : Fin 8} {t : Stamp} (h : P s) : P (s.takeSend i t) := by
  unfold State.takeSend State.acceptSend
  refine keeps_ite (B.slotUpd h) ?_
  split
  · exact B.slotUpd h
  · exact keeps_ite (B.slotUpd h) (keeps_ite (B.slotUpd h) (B.modSide (B.slotUpd h)))

theorem withdrawSlot {i : Fin 8} {t : Stamp} {back : Bool} (h : P s) : P (s.withdrawSlot i t back) :=
  B.leaveQueue (B.slotUpd h)

theorem takeWithdraw {i : Fin 8} {t : Stamp} (h : P s) : P (s.takeWithdraw i t) := by
  have inFlight : P (match (if s.head (s.slot i).owner = some i then (s.side (s.slot i).owner).flight else none) with
      | none => s.withdrawSlot i t false
      | some f =>
        if s.flightGranted f then
          (s.withdraw (s.slot i).owner fun p => p.handle == f.handle && p.kind == .txOpen && !p.started).withdrawSlot i t true
        else s.slotUpd i true fun o => { o.answered t .ok with withdraw := true }) := by
    split
    · exact B.withdrawSlot h
    · exact keeps_ite (B.withdrawSlot (B.withdraw h)) (B.slotUpd h)
  unfold State.takeWithdraw
  dsimp only
  split
  · exact B.withdrawSlot h
  · exact inFlight
  · exact inFlight
  · exact B.slotUpd h

theorem takeOut {i : Fin 8} (h : P s) : P (s.takeOut i) := by
  have noted : P (s.modSlot i fun o => { o with notify := s.outNotify i }) := B.txu h
  unfold State.takeOut
  refine keeps_ite noted ?_
  split
  · exact B.takeSend noted
  · exact B.takeWithdraw noted
  · unfold State.takeOutFree
    split <;> exact B.slotUpd noted
  · exact B.slotUpd noted

/-! ### Timers that run out (R67, R158, R161, R167) -/

theorem retryLost {x : Sub} (h : P s) : P (s.retryLost x) := B.beginPass (B.subUpd h)
theorem failHead {x : Sub} {c : FailCause} (h : P s) : P (s.failHead x c) := B.finishHead h
theorem discardReasm {r : Fin 4} (h : P s) : P (s.discardReasm r) := B.modReasm h

end BlockSteady

namespace CommandSteady

variable {P : State → Prop} (C : CommandSteady P) {s : State}
include C

/-! ### The takes (R57, R80, R133, R153, R168, R184 to R186) -/

theorem takeSubs (h : P s) : P s.takeSubs := C.takeSettings (C.takeSettings (C.scan h))

theorem takeCells (h : P s) : P s.takeCells := C.cellsNotice (C.cellsNotice (C.takeTables (C.scan h)))

theorem takeCalls (h : P s) : P s.takeCalls := keeps_foldl allCalls (fun _ _ _ ht => C.takeCall ht) (C.scan h)

theorem takeOutbox (h : P s) : P s.takeOutbox := keeps_foldl allSlots (fun _ _ _ ht => C.takeOut ht) (C.scan h)

theorem takeInbox (h : P s) : P s.takeInbox :=
  C.deliverWaiting (keeps_foldl allSlots (fun _ _ t ht => C.txu (s := t) ht) (C.scan h))

theorem takeFault (h : P s) : P s.takeFault := keeps_when C.fault (C.scan h)

theorem takeArea {a : Area} (h : P s) : P (s.takeArea a) := by
  unfold State.takeArea
  refine keeps_when (fun _ => ?_) h
  cases a with
  | subs => exact C.takeSubs h
  | cells => exact C.takeCells h
  | calls => exact C.takeCalls h
  | outbox => exact C.takeOutbox h
  | inbox => exact C.takeInbox h
  | fault => exact C.takeFault h
  | setup | power | voice => exact C.scan h

theorem takeHeld (h : P s) : P s.takeHeld := keeps_foldl allAreas (fun _ _ _ ht => C.takeArea ht) h

/-! ### The events of the contexts, and the commands sent (R27, R28, R47) -/

theorem issue {o : Occ} (h : P s) : P (s.issue o) := C.napOver (C.plan (C.plan (keeps_when C.plan h)))

theorem notFound {c : Fin 3} {r : Role} {x : Sub} (h : P s) : P (s.notFound c r x) := by
  have removed := C.removeUser (c := c) (r := r) (x := x) h
  unfold State.notFound
  cases r with
  | search => exact C.nextAttempt removed
  | verify => exact C.modMbu (C.quietMark removed)
  | target => exact C.failHandover removed
  | serving => exact removed

theorem loseCell {c : Fin 3} (h : P s) : P (s.loseCell c) :=
  keeps_foldl _ (fun u _ _ ht => (C.service u.sub).tellLoss ht) (C.freeCtx h)

end CommandSteady

/-! ### Every command of the blocks (R169) -/

/-- What a command of the blocks answers where it finds the state `u`: `u` itself, or what follows an act made while the blocks
work, of which every predicate that the acts cannot disturb still holds. -/
def BlockRun (u : State) (r : Result) : Prop :=
  r = .next u ∨ u.working = true ∧ ∃ v, r = .next (u.finish v) ∧ ∀ P, CommandSteady P → P u → P v

theorem blockRun_block {s : State} {dt : Nat} {g : State → Bool} {f : State → State}
    (act : ∀ {P : State → Prop} (_ : CommandSteady P) {u : State}, P u → P (f u)) : BlockRun (s.advance dt) (s.block dt g f) := by
  unfold State.block State.direct
  dsimp only
  split
  · next due =>
    rw [Bool.and_eq_true] at due
    exact .inr ⟨due.1, _, rfl, fun P C h => act C h⟩
  · exact .inl rfl

theorem blockRun_report {s : State} {dt : Nat} {h : Handle} {expects : Kind → Bool} {act : Occ → State → State}
    (acts : ∀ (o : Occ) {P : State → Prop} (_ : CommandSteady P) {u : State}, P u → P (act o u)) :
    BlockRun (s.advance dt) (s.report dt h expects act) :=
  blockRun_block fun C _ hu => by
    split
    · exact acts _ C hu
    · exact hu

theorem blockRun_exec {c : Instr} (s : State) (block : isBlockCommand c = true) :
    BlockRun (s.advance (delay c)) (exec c s) := by
  cases c with unfold exec
  | powerOn | resetPinAssert | resetPinRelease | softReset | start | runningEntry | stop | hostMemoryWrite
  | ignoredRegisterWrite | scanWrite | pendingWrite | enableWrite | clockLoRead | txInhibitAssert | txInhibitRelease
  | napEnd | slowTimerExpiry | wakingEnd => contradiction
  | subsScanTake => exact blockRun_block fun C _ h => C.takeSubs h
  | cellsScanTake => exact blockRun_block fun C _ h => C.takeCells h
  | callsScanTake => exact blockRun_block fun C _ h => C.takeCalls h
  | outboxScanTake => exact blockRun_block fun C _ h => C.takeOutbox h
  | inboxScanTake => exact blockRun_block fun C _ h => C.takeInbox h
  | faultScanTake => exact blockRun_block fun C _ h => C.takeFault h
  | noEffectScanTake => exact blockRun_block fun C _ h => C.scan h
  | commandIssue =>
    refine blockRun_block fun C _ h => ?_
    split
    exacts [C.issue h, h]
  | occupancySilent =>
    refine blockRun_block fun C _ h => ?_
    split
    exacts [C.concludeSilent h, h]
  | beaconReport => exact blockRun_report fun _ _ C _ h => C.beaconReport C.sampled h
  | nothingReport => exact blockRun_report fun _ _ C _ h => C.concludeDone (C.missWindows (C.missBeacon h))
  | blockReport => exact blockRun_report fun _ _ C _ h => C.concludeDone (C.routeBlock h)
  | levelReport => exact blockRun_report fun _ _ C _ h => C.concludeDone (C.routeLevel h)
  | sentReport => exact blockRun_report fun _ _ C _ h => C.concludeDone h
  | planningEvent =>
    refine blockRun_block fun C _ h => ?_
    split
    exacts [C.offer h, h]
  | windowedPlanningEvent =>
    refine blockRun_block fun C _ h => ?_
    split
    exacts [C.offer h, h]
  | seekPlanningEvent => exact blockRun_block fun C _ h => C.seekEvent h
  | frameBaseWrite =>
    refine blockRun_block fun C _ h => ?_
    split
    exacts [C.callUpd (C.modCall h), h]
  | downlinkCellWrite =>
    refine blockRun_block fun C _ h => ?_
    split
    exacts [C.downWrite h, h]
  | holdoverEntry => exact blockRun_block fun C _ h => C.modCtx h
  | loss => exact blockRun_block fun C _ h => C.loseCell h
  | windowsMissed => exact blockRun_block fun C _ h => C.enterSearching h
  | failRun => exact blockRun_block fun C _ h => C.enterSearching h
  | linkFailure => exact blockRun_block fun C _ h => C.dropCall h
  | seekDeadline => exact blockRun_block fun C _ h => C.notFound h
  | lostRetry => exact blockRun_block fun C _ h => C.retryLost h
  | listenPeriodEnd => exact blockRun_block fun C _ h => C.endListen h
  | ringingExpiry => exact blockRun_block fun C _ h => C.endCall h
  | accessTimerExpiry => exact blockRun_block fun C _ h => C.endCall h
  | releaseTimerExpiry => exact blockRun_block fun C _ h => C.endCall h
  | reportTimerExpiry => exact blockRun_block fun C _ h => C.reportTimer h
  | leave =>
    refine blockRun_block fun C _ h => ?_
    split
    exacts [C.leaveOld h, h]
  | arriveTimeout => exact blockRun_block fun C _ h => C.failHandover h
  | secondFailure => exact blockRun_block fun C _ h => C.dropCall h
  | ackWindowClose =>
    refine blockRun_block fun C _ h => ?_
    split
    exacts [C.attemptFailed h, h]
  | noAck => exact blockRun_block fun C _ h => C.failHead h
  | restartLimit => exact blockRun_block fun C _ h => C.failHead h
  | pauseExpiry => exact blockRun_block fun C _ h => C.failHead h
  | reassemblyTimeout => exact blockRun_block fun C _ h => C.discardReasm h

end Sys2Proof.Machine

open Sys2Proof Sys2Proof.Machine

/-- Settles O4: of what a command of the blocks can answer, nothing but the time is left where they do not work. -/
theorem blocksActOnlyWhileTheyWork : Obligations.BlocksActOnlyWhileTheyWork := by
  intro c s block idle
  rcases blockRun_exec s block with time | ⟨working, -⟩
  · exact time
  · rw [idle] at working
    contradiction

end

section
/-! SUPPORT. The power controller's own commands and its estimator (R173 to R177, R182, R185): a SCAN write in any power state, the entry
to WAKING, and a drift sample. -/

namespace Sys2Proof.Machine

/-- A SCAN write that is taken. -/
theorem exec_scanWrite {s u : State} {dt : Nat} {w : LaneWord} (time : u = s.advance dt) (alive : s.pins.resetHeld = false) :
    exec (.scanWrite dt w) s = .next (u.writeScan w) := by
  subst time
  exact direct_of_due (f := fun u => u.writeScan w) (alive_advance dt alive)

/-- The mask with the areas that a SCAN write brings. -/
def State.scanned (s : State) (w : LaneWord) : State := { s with exm := { s.exm with scan := s.exm.scan ||| areasWritten w } }

theorem writeScan_of_awake {s : State} {w : LaneWord} (awake : s.pwc.state ≠ .sleep) : s.writeScan w = s.scanned w :=
  if_neg awake

theorem writeScan_of_asleep {s : State} {w : LaneWord} (asleep : s.pwc.state = .sleep) :
    s.writeScan w = (s.scanned w).enterWaking s.pwc.timer := if_pos asleep

/-- The mask that a SCAN write leaves, bit by bit. -/
theorem getLsbD_scanned (s : State) (lanes : BitVec 4) (data : Word) {i : Nat} (inMask : i < 9) :
    (s.scanned ⟨lanes, data⟩).exm.scan.getLsbD i =
      (s.exm.scan.getLsbD i || (lanes.getLsbD (i / 8) && data.getLsbD i)) := by
  rw [State.scanned, BitVec.getLsbD_or, getLsbD_areasWritten lanes data inMask]

theorem scan_scanned_of_both (s : State) {lanes : BitVec 4} (data : Word) (low : lanes.getLsbD 0 = true)
    (high : lanes.getLsbD 1 = true) : (s.scanned ⟨lanes, data⟩).exm.scan = s.exm.scan ||| data.truncate 9 := by
  rw [State.scanned, areasWritten_of_both data low high]

/-- The entry to WAKING leaves the host port as it stands, and takes the sleep for the time of its ticks. -/
theorem enterWaking_power (s : State) (n : Nat) : (s.enterWaking n).pwc.state = .waking ∧ (s.enterWaking n).exm = s.exm ∧
    (s.enterWaking n).pwc.lastSleep = elapsedTime n s.pwc.usedDrift ∧ (s.enterWaking n).pwc.drift = s.pwc.drift :=
  ⟨rfl, rfl, rfl, rfl⟩

end Sys2Proof.Machine

open Sys2Proof Sys2Proof.Machine

/-- Settles O20: the mask is the same awake and asleep; asleep the entry to WAKING follows, which leaves the host port. -/
theorem scanWriteAddsToTheMask : Obligations.ScanWriteAddsToTheMask := by
  intro s u dt lanes data time alive _
  have power : u.pwc.state = s.pwc.state := time ▸ power_advance dt s
  have bits (i : Nat) (inMask : i < 9) := getLsbD_scanned u lanes data inMask
  have both (low : lanes.getLsbD 0 = true) (high : lanes.getLsbD 1 = true) := scan_scanned_of_both u data low high
  refine ⟨fun awake => ⟨u.scanned ⟨lanes, data⟩, ?_, rfl, bits, both⟩,
    fun asleep => ⟨(u.scanned ⟨lanes, data⟩).enterWaking u.pwc.timer, ?_, ?_⟩⟩
  · rw [exec_scanWrite time alive, writeScan_of_awake (power ▸ awake)]
  · rw [exec_scanWrite time alive, writeScan_of_asleep (power.trans asleep)]
  · obtain ⟨waking, exm, lastSleep, -⟩ := enterWaking_power (u.scanned ⟨lanes, data⟩) u.pwc.timer
    rw [exm]
    exact ⟨bits, both, waking, (mem_passed time : u.exm.mem = s.exm.mem), lastSleep⟩

end

section
/-! SUPPORT. The power state that a command ends with (R171, R175, R192): the decision that follows a command of the blocks, and the
decision of an entry itself, each made only where no limit is reached; and what the entries to RUN and to RUNNING, STOP and the
TXINHIBIT line do before it. -/

namespace Sys2Proof.Machine

/-! ### The sleep decision, and what follows a command (R171, R173) -/

/-- The power state that a sleep decision gives the part as it stands. -/
def State.decided (s : State) : Power :=
  if s.pwc.permit = .full ∧ s.sleepConditions.all id = true ∧ s.gapAtLeast sleepGap = true then .sleep
  else if s.pwc.permit ≠ .none ∧ s.gapAtLeast napGap = true then .nap else .run

theorem decided_sleepDecision (s : State) : s.sleepDecision.decided = s.decided := by
  obtain ⟨permit, conditions, next, now, -⟩ := sleepDecision_reads s
  unfold State.decided State.gapAtLeast
  rw [permit, conditions, next, now]

theorem decided_clearMarks (s : State) : s.clearMarks.decided = s.decided := rfl

/-- What follows a command: the retries and the contexts' activity, then the decision, if there is one. -/
theorem finish_decides (s0 s : State) : s0.finish s =
    (if s0.decides s.retried.refresh then s.retried.refresh.sleepDecision else s.retried.refresh).clearMarks := rfl

theorem unlimited_of_decides {s0 s : State} (decides : s0.decides s = true) : s.limitReached = false := by
  simp only [State.decides, Bool.and_eq_true, Bool.not_eq_true'] at decides
  exact decides.1.2

/-- The power state stands through the retries. -/
theorem pwc_refresh_retried (s : State) : s.retried.refresh.pwc.state = s.pwc.state ∧
    s.retried.refresh.pwc.permit = s.pwc.permit :=
  ⟨congrArg Outer.power (outer_retried s), congrArg Outer.permit (outer_retried s)⟩

/-- After a command the power state is what it was, or the one decided, with no limit reached. -/
theorem power_finish (s0 s : State) : (s0.finish s).pwc.permit = s.pwc.permit ∧
    ((s0.finish s).pwc.state = s.pwc.state ∨
      (s0.finish s).limitReached = false ∧ (s0.finish s).pwc.state = (s0.finish s).decided) := by
  obtain ⟨state, permit⟩ := pwc_refresh_retried s
  rw [finish_decides, limitReached_clearMarks, decided_clearMarks]
  split
  · next decides =>
    obtain ⟨permit', -, -, -, limit⟩ := sleepDecision_reads s.retried.refresh
    rw [limit, decided_sleepDecision]
    exact ⟨permit'.trans permit, .inr ⟨unlimited_of_decides decides, power_sleepDecision _⟩⟩
  · exact ⟨permit, .inl state⟩

/-- After an entry the part is in RUN while a limit is reached, and in the power state decided otherwise. -/
theorem power_finishEntry (s0 : State) {s : State} (run : s.pwc.state = .run) :
    (s0.finishEntry s).pwc.permit = s.pwc.permit ∧ (s0.finishEntry s).pwc.state =
      if (s0.finishEntry s).limitReached then .run else (s0.finishEntry s).decided := by
  obtain ⟨permit, ends⟩ := power_finish s0 s
  rw [run] at ends
  unfold State.finishEntry
  generalize s0.finish s = r at permit ends ⊢
  dsimp only
  split
  · next decides =>
    obtain ⟨permit', -, -, -, limit⟩ := sleepDecision_reads r
    rw [limit, decides.2, decided_sleepDecision]
    exact ⟨permit'.trans permit, power_sleepDecision r⟩
  · next undecided =>
    refine ⟨permit, ?_⟩
    cases reached : r.limitReached with
    | true => exact ends.resolve_right fun ⟨unreached, _⟩ => by rw [reached] at unreached; contradiction
    | false => exact (ends.resolve_left fun stays => undecided ⟨stays, reached⟩).2

/-- A part decided into SLEEP meets every SLEEP condition. -/
theorem conditions_of_decided {s : State} (sleep : s.decided = .sleep) : s.sleepConditions.all id = true := by
  unfold State.decided at sleep
  split at sleep
  · next meets => exact meets.2.1
  · split at sleep <;> contradiction

/-- The drift estimate stands through the decision. -/
theorem drift_finish (s0 s : State) : (s0.finish s).pwc.drift = s.retried.pwc.drift := by
  rw [finish_decides]
  split
  · obtain ⟨q, decided, drift⟩ := sleepDecision_frame s.retried.refresh
    rw [decided]
    exact drift
  · rfl

theorem drift_finishEntry (s0 s : State) : (s0.finishEntry s).pwc.drift = s.retried.pwc.drift := by
  rw [← drift_finish s0 s]
  unfold State.finishEntry
  dsimp only
  split
  · obtain ⟨q, decided, drift⟩ := sleepDecision_frame (s0.finish s)
    rw [decided]
    exact drift
  · rfl

/-! ### The line, the entries and STOP (R50, R53, R54, R60, R175, R193) -/

namespace BlockSteady

variable {P : State → Prop} (B : BlockSteady P) {s : State}
include B

theorem inhibitOn (h : P s) : P s.inhibitOn := by
  rw [inhibitOn_eq]
  refine keeps_foldl _ (fun o _ t ht => ?_) (B.plan h)
  unfold State.endTransmit
  exact keeps_ite (B.deliver (B.plan (B.dropOccs ht))) (B.deliver (B.dropOccs ht))

theorem inhibitOff (h : P s) : P s.inhibitOff := by
  unfold State.inhibitOff
  exact keeps_foldl allCtx (fun _ _ _ ht => B.modCtx ht) (B.plan h)

theorem sampleLine (h : P s) : P s.sampleLine := keeps_ite h (keeps_ite (B.inhibitOn h) (B.inhibitOff h))

/-- What fell due while the part slept (R32, R50, R67, R139, R161, R167). -/
theorem lateWork (h : P s) : P s.missIssues.lateEvents.lateTimers := by
  have issues : P s.missIssues := keeps_foldl _ (fun _ _ _ ht => B.deliver ht) (B.dropOccs h)
  have events : P s.missIssues.lateEvents := by
    refine keeps_foldl allCtx (fun c _ t ht => ?_) issues
    split
    · exact B.offer ht
    · exact ht
  unfold State.lateTimers
  refine keeps_foldl allReasm (fun _ _ _ ht => keeps_when B.discardReasm ht) ?_
  refine keeps_foldl allSubs (fun _ _ _ ht => keeps_when B.failHead ht) ?_
  refine keeps_foldl allCalls (fun _ _ _ ht => keeps_when B.endCall ht) ?_
  exact keeps_foldl allSubs (fun _ _ _ ht => keeps_when B.retryLost ht) events

theorem entrySearches (running : P s.nowRunning) : P s.entrySearches :=
  keeps_foldl allSubs (fun _ _ _ ht => keeps_when B.enableSub ht) running

theorem stopPlan (h : P s) : P s.stopPlan := by
  unfold State.stopPlan
  exact keeps_foldl _ (fun _ _ _ ht => B.deliver ht) (B.plan (B.plan h))

theorem stopCalls (h : P s) : P s.stopCalls := keeps_foldl allCalls (fun _ _ _ ht => keeps_when B.closeCall ht) h

theorem stopSub {x : Sub} (h : P s) : P (s.stopSub x) := by
  unfold State.stopSub
  exact B.setDecline (B.modMbu (B.modSbc (B.dropProbes (B.subSet h))))

theorem blocksStopped (h : P s) : P s.blocksStopped := by
  have settled : P s.dropWithdraws := keeps_foldl allSlots (fun _ _ t ht => B.txu (s := t) ht) h
  exact B.stopSub (B.stopSub (B.stopCalls (B.failQueue (B.failQueue (B.stopPlan settled)))))

theorem listsCleared (h : P s) : P s.listsCleared :=
  B.txu (s := { s with tmu := s.listsCleared.tmu }) (B.tmu h)

end BlockSteady

/-- The entry to WAKING's end: in RUN, with POWER raised, before anything that fell due is done. -/
def State.nowInRun (s : State) : State := (s.powerUpd true fun p => { p with state := .run }).refresh

/-- The entry to RUN up to a held STOP or the line: what fell due, and the scans that are held. -/
def State.caughtUp (s : State) : State := s.nowInRun.missIssues.lateEvents.lateTimers.takeHeld

theorem enterRun_eq (s : State) : s.enterRun =
    if s.caughtUp.exm.heldStop then { s.caughtUp.stopPart with
      rpl := { s.caughtUp.stopPart.rpl with inhibit := s.caughtUp.pins.txInhibit } }
    else s.caughtUp.sampleLine.finishEntry s.caughtUp.sampleLine := by
  unfold State.enterRun State.caughtUp State.nowInRun
  rfl

theorem CommandSteady.caughtUp {P : State → Prop} (C : CommandSteady P) {s : State} (h : P s.nowInRun) : P s.caughtUp :=
  C.takeHeld (C.lateWork h)

end Sys2Proof.Machine
end

section
/-! SUPPORT. Every command keeps the part in RUN unless it is RUNNING, and out of SLEEP unless every SLEEP condition holds and no
limit is reached (R169, R171): awake, the blocks' acts leave it RUNNING and awake, and only a decision follows; asleep, no
command acts on what the conditions and the limits go by but one that wakes the part. -/

namespace Sys2Proof.Machine

/-- The power state fits the part: RUN unless it is RUNNING, and no SLEEP but where the part may sleep (R169, R171). -/
def State.powerFits (s : State) : Prop := s.powerOk = true ∧ s.sleepOk = true

/-! ### Which states fit -/

theorem powerOk_iff {s : State} : s.powerOk = true ↔ (s.pwc.state ≠ .run → s.exm.run = .running) := by
  simp only [State.powerOk, Bool.or_eq_true, beq_iff_eq, ne_eq]
  tauto

theorem sleepOk_iff {s : State} :
    s.sleepOk = true ↔ (s.pwc.state = .sleep → s.sleepConditions.all id = true ∧ s.limitReached = false) := by
  simp only [State.sleepOk, Bool.or_eq_true, bne_iff_ne, Bool.and_eq_true, Bool.not_eq_true', ne_eq]
  tauto

theorem powerFits_of_run {s : State} (run : s.pwc.state = .run) : s.powerFits :=
  ⟨powerOk_iff.2 fun other => absurd run other, sleepOk_iff.2 fun asleep => by rw [run] at asleep; contradiction⟩

theorem powerFits_of_awake {s : State} (running : s.exm.run = .running) (awake : s.pwc.state ≠ .sleep) : s.powerFits :=
  ⟨powerOk_iff.2 fun _ => running, sleepOk_iff.2 fun asleep => absurd asleep awake⟩

/-- A part in another power state than RUN is RUNNING. -/
theorem State.powerFits.running {s : State} (h : s.powerFits) (other : s.pwc.state ≠ .run) : s.exm.run = .running :=
  powerOk_iff.1 h.1 other

/-- A part in RUN where it is not RUNNING. -/
theorem State.powerFits.run {s : State} (h : s.powerFits) (idle : s.exm.run ≠ .running) : s.pwc.state = .run :=
  by_contra fun other => idle (h.running other)

/-- What a part goes by as it sleeps is of the blocks and the scan-pending mask. -/
theorem State.powerFits.of_same {s t : State} (h : s.powerFits) (power : t.pwc.state = s.pwc.state)
    (run : t.exm.run = s.exm.run)
    (reads : s.pwc.state = .sleep → t.sleepConditions = s.sleepConditions ∧ t.limitReached = s.limitReached) :
    t.powerFits := by
  refine ⟨powerOk_iff.2 fun other => run.trans (h.running (power ▸ other)), sleepOk_iff.2 fun asleep => ?_⟩
  rw [power] at asleep
  obtain ⟨conditions, limit⟩ := reads asleep
  rw [conditions, limit]
  exact sleepOk_iff.1 h.2 asleep

/-- A power state as decided, with no limit reached, fits a RUNNING part. -/
theorem powerFits_of_decided {s : State} (running : s.exm.run = .running) (unlimited : s.limitReached = false)
    (decided : s.pwc.state = s.decided) : s.powerFits :=
  ⟨powerOk_iff.2 fun _ => running,
    sleepOk_iff.2 fun asleep => ⟨conditions_of_decided (decided.symm.trans asleep), unlimited⟩⟩

/-! ### Time and the host port -/

theorem powerFits_advance {s : State} (dt : Nat) (h : s.powerFits) : (s.advance dt).powerFits := by
  refine h.of_same (power_advance dt s) (congrArg Exm.run (exm_advance dt s)) fun asleep =>
    ⟨?_, limitReached_advance_asleep dt asleep⟩
  unfold State.advance
  split
  · rfl
  · rfl

theorem powerFits_tick {s : State} (h : s.powerFits) : s.tick.powerFits := by
  unfold State.tick
  split
  · exact h
  · split
    · exact h.of_same rfl rfl fun _ => ⟨rfl, rfl⟩
    · next awake => split <;> exact h.of_same rfl rfl fun asleep => absurd asleep awake

theorem powerFits_exm {s : State} {e : Exm} (scan : e.scan = s.exm.scan) (run : e.run = s.exm.run) (h : s.powerFits) :
    State.powerFits { s with exm := e } := by
  refine h.of_same rfl run fun _ => ⟨?_, rfl⟩
  unfold State.sleepConditions
  rw [← scan]
  rfl

theorem powerFits_pins {s : State} {p : Pins} (h : s.powerFits) : State.powerFits { s with pins := p } :=
  h.of_same rfl rfl fun _ => ⟨rfl, rfl⟩

/-- A host write changes the host-written memory and the fault record, and raises FAULT at most. -/
theorem hostWrite_frame (s : State) (word : BitVec 14) (lanes : BitVec 4) (data : Word) :
    ∃ e, s.hostWrite word lanes data = { s with exm := e } ∧ e.scan = s.exm.scan ∧ e.run = s.exm.run := by
  unfold State.hostWrite State.dropWrite
  dsimp only
  split
  · exact ⟨_, rfl, rfl, rfl⟩
  · split
    · exact ⟨_, rfl, rfl, rfl⟩
    · split
      · split
        · exact ⟨_, rfl, rfl, rfl⟩
        · exact ⟨_, rfl, rfl, rfl⟩
      · exact ⟨_, rfl, rfl, rfl⟩

theorem powerFits_hostWrite {s : State} (word : BitVec 14) (lanes : BitVec 4) (data : Word) (h : s.powerFits) :
    (s.hostWrite word lanes data).powerFits := by
  obtain ⟨e, written, scan, run⟩ := hostWrite_frame s word lanes data
  rw [written]
  exact powerFits_exm scan run h

/-- A part that is woken is RUNNING, as it was asleep. -/
theorem powerFits_enterWaking {s : State} (n : Nat) (running : s.exm.run = .running) : (s.enterWaking n).powerFits :=
  powerFits_of_awake running (by simp [(enterWaking_power s n).1])

theorem powerFits_writeScan {s : State} (w : LaneWord) (h : s.powerFits) : (s.writeScan w).powerFits := by
  by_cases asleep : s.pwc.state = .sleep
  · rw [writeScan_of_asleep asleep]
    exact powerFits_enterWaking _ (h.running (by simp [asleep]))
  · rw [writeScan_of_awake asleep]
    exact h.of_same rfl rfl fun asleep' => absurd asleep' asleep

/-! ### START and STOP (R192, R193) -/

theorem power_startPart (s : State) : s.startPart.pwc.state = s.pwc.state := by
  by_cases version : s.setupVersion = 1
  · obtain ⟨p, n, m, q, starts⟩ := startPart_frame version
    rw [starts]
  · rw [State.startPart, if_neg version]

theorem power_stopPart (s : State) : s.stopPart.pwc.state = .run := by
  rw [stopPart_eq]
  obtain ⟨q, run, -, stops⟩ := partStopped_frame s.blocksStopped.listsCleared
  rw [stops]
  exact run

theorem powerFits_writeStop {s : State} (h : s.powerFits) : s.writeStop.powerFits := by
  by_cases stopped : s.exm.run = .stopped
  · rwa [writeStop_of_stopped stopped]
  · cases power : s.pwc.state with
    | run =>
      rw [writeStop_of_awake stopped (.inl power)]
      exact powerFits_of_run (power_stopPart s)
    | nap =>
      rw [writeStop_of_awake stopped (.inr power)]
      exact powerFits_of_run (power_stopPart s)
    | waking =>
      rw [writeStop_of_waking stopped power]
      exact powerFits_exm rfl rfl h
    | sleep =>
      rw [writeStop_of_asleep stopped power]
      exact powerFits_enterWaking _ (h.running (by simp [power]) : s.exm.run = .running)

/-! ### What follows the blocks' acts -/

/-- The part is RUNNING, in one of the power states of `Q`. -/
def State.runsIn (Q : Power → Prop) (s : State) : Prop := s.exm.run = .running ∧ Q s.pwc.state

theorem runsIn_of_working {s : State} (working : s.working = true) : s.runsIn (· ≠ .sleep) := by
  simp only [State.working, Bool.and_eq_true, Bool.or_eq_true, beq_iff_eq] at working
  obtain ⟨⟨running, awake⟩, -⟩ := working
  refine ⟨running, fun asleep => ?_⟩
  rw [asleep] at awake
  simp at awake

/-- A drift sample leaves the power state, the permit, and the estimate that the slow timer was programmed with. -/
theorem driftSample_reads (s : State) (e : Int) : (s.driftSample e).pwc.state = s.pwc.state ∧
    (s.driftSample e).pwc.permit = s.pwc.permit ∧ (s.driftSample e).pwc.usedDrift = s.pwc.usedDrift ∧
    (s.driftSample e).exm.run = s.exm.run := by
  unfold State.driftSample
  dsimp only
  split
  · exact ⟨rfl, rfl, rfl, rfl⟩
  · split
    · exact ⟨rfl, rfl, rfl, rfl⟩
    · exact ⟨rfl, rfl, rfl, rfl⟩

/-- The blocks' acts leave the power state as it is, or end a NAP. -/
theorem commandSteady_runsIn {Q : Power → Prop} (run : Q .run) : CommandSteady (State.runsIn Q) where
  toBlockSteady := blockSteady_of (Q := fun e w _ => e.run = .running ∧ Q w.state) id
  scan h := h
  fault h := h
  sampled {s e} h := by
    obtain ⟨power, -, -, running⟩ := driftSample_reads s e
    exact ⟨running.trans h.1, power ▸ h.2⟩
  napOver {s} h := by
    obtain ⟨q, frame, -⟩ := setPower_frame s .run
    have power := power_setPower s .run
    rw [frame] at power ⊢
    exact ⟨h.1, power ▸ run⟩

theorem commandSteady_awake : CommandSteady (State.runsIn (· ≠ .sleep)) := commandSteady_runsIn (by simp)
theorem commandSteady_inRun : CommandSteady (State.runsIn (· = .run)) := commandSteady_runsIn rfl

theorem powerFits_finish {s0 s : State} (h : s.runsIn (· ≠ .sleep)) : (s0.finish s).powerFits := by
  obtain ⟨running, awake⟩ := h
  obtain ⟨-, -, -, run⟩ := host_finish s0 s
  rcases (power_finish s0 s).2 with stands | ⟨unlimited, decided⟩
  · exact powerFits_of_awake (run.trans running) (stands ▸ awake)
  · exact powerFits_of_decided (run.trans running) unlimited decided

theorem powerFits_finishEntry {s0 s : State} (running : s.exm.run = .running) (run : s.pwc.state = .run) :
    (s0.finishEntry s).powerFits := by
  have ends := (power_finishEntry s0 run).2
  have runs : (s0.finishEntry s).exm.run = .running := by
    obtain ⟨q, frame⟩ := finishEntry_frame s0 s
    obtain ⟨-, -, -, same⟩ := host_finish s0 s
    rw [frame]
    exact same.trans running
  cases limited : (s0.finishEntry s).limitReached with
  | true => rw [limited] at ends; exact powerFits_of_run ends
  | false => rw [limited] at ends; exact powerFits_of_decided runs limited ends

theorem powerFits_enterRunning {s0 s : State} (run : s.pwc.state = .run) : (s0.finishEntry s.enterRunning).powerFits := by
  have C := commandSteady_inRun
  obtain ⟨running, inRun⟩ := C.plan (v := s.enterRunning.rpl) (C.takeHeld (C.entrySearches (s := s) ⟨rfl, run⟩))
  exact powerFits_finishEntry running inRun

theorem powerFits_enterRun {s : State} (running : s.exm.run = .running) : s.enterRun.powerFits := by
  have C := commandSteady_inRun
  have caught : s.caughtUp.runsIn (· = .run) := C.caughtUp ⟨running, rfl⟩
  rw [enterRun_eq]
  generalize s.caughtUp = t at caught ⊢
  split
  · exact powerFits_of_run (power_stopPart t)
  · obtain ⟨running, inRun⟩ := C.sampleLine caught
    exact powerFits_finishEntry running inRun

/-! ### Every command -/

theorem powerFits_direct {s t : State} {dt : Nat} {g : State → Bool} {f : State → State} (h : s.powerFits)
    (runs : s.direct dt g f = .next t) (act : ∀ {u : State}, u.powerFits → g u = true → (f u).powerFits) : t.powerFits := by
  have passed := powerFits_advance dt h
  unfold State.direct at runs
  cases runs
  split
  · next due => exact act passed due
  · exact passed

theorem powerFits_block {s t : State} {c : Instr} (block : isBlockCommand c = true) (h : s.powerFits)
    (runs : exec c s = .next t) : t.powerFits := by
  rcases blockRun_exec s block with time | ⟨working, v, acts, keeps⟩
  · rw [time] at runs
    cases runs
    exact powerFits_advance _ h
  · rw [acts] at runs
    cases runs
    exact powerFits_finish (keeps _ commandSteady_awake (runsIn_of_working working))

theorem powerFits_exec {s t : State} {c : Instr} (h : s.powerFits) (runs : exec c s = .next t) : t.powerFits := by
  have reset (u : State) : u.resetPart.powerFits := powerFits_of_run rfl
  by_cases block : isBlockCommand c = true
  · exact powerFits_block block h runs
  cases c with unfold exec at runs
  | powerOn => exact powerFits_direct h runs fun _ _ => reset _
  | resetPinAssert => exact powerFits_direct h runs fun _ _ => powerFits_pins (reset _)
  | resetPinRelease => exact powerFits_direct h runs fun hu _ => powerFits_pins hu
  | softReset => exact powerFits_direct h runs fun _ _ => reset _
  | start =>
    refine powerFits_direct h runs fun {u} hu due => powerFits_of_run ((power_startPart u).trans (hu.run ?_))
    simp only [Bool.and_eq_true, beq_iff_eq] at due
    simp [due.2]
  | runningEntry =>
    refine powerFits_direct h runs fun {u} hu due => powerFits_enterRunning (hu.run ?_)
    simp only [Bool.and_eq_true, beq_iff_eq] at due
    simp [due.2]
  | stop => exact powerFits_direct h runs fun hu _ => powerFits_writeStop hu
  | hostMemoryWrite => exact powerFits_direct h runs fun hu _ => powerFits_hostWrite _ _ _ hu
  | ignoredRegisterWrite => exact powerFits_direct h runs fun hu _ => hu
  | scanWrite => exact powerFits_direct h runs fun hu _ => powerFits_writeScan _ hu
  | pendingWrite => exact powerFits_direct h runs fun hu _ => powerFits_exm rfl rfl hu
  | enableWrite => exact powerFits_direct h runs fun hu _ => powerFits_exm rfl rfl hu
  | clockLoRead =>
    exact powerFits_direct h runs fun hu _ => keeps_ite (P := State.powerFits) (powerFits_exm rfl rfl hu)
      (powerFits_exm rfl rfl hu)
  | txInhibitAssert =>
    refine powerFits_direct h runs fun hu _ => ?_
    dsimp only
    split
    · next takes =>
      rw [Bool.and_eq_true] at takes
      exact powerFits_finish (commandSteady_awake.inhibitOn (runsIn_of_working takes.1))
    · exact powerFits_pins hu
  | txInhibitRelease =>
    refine powerFits_direct h runs fun hu _ => ?_
    dsimp only
    split
    · next takes =>
      rw [Bool.and_eq_true] at takes
      exact powerFits_finish (commandSteady_awake.inhibitOff (runsIn_of_working takes.1))
    · exact powerFits_pins hu
  | napEnd => exact powerFits_direct h runs fun {u} _ _ => powerFits_of_run (power_setPower u .run)
  | slowTimerExpiry =>
    refine powerFits_direct h runs fun hu due => powerFits_enterWaking _ (hu.running ?_)
    simp only [Bool.and_eq_true, beq_iff_eq] at due
    simp [due.1.2]
  | wakingEnd =>
    refine powerFits_direct h runs fun hu due => powerFits_enterRun (hu.running ?_)
    simp only [Bool.and_eq_true, beq_iff_eq] at due
    simp [due.1.2]
  | _ => exact absurd rfl block

end Sys2Proof.Machine

open Sys2Proof Sys2Proof.Machine

/-- Settles O10: a tick changes a clock alone, and every command keeps the power state fit. -/
theorem stepKeepsSleepQuiet : Obligations.StepKeepsSleepQuiet := by
  intro s t power sleep runs
  have fits : s.powerFits := ⟨power, sleep⟩
  unfold step at runs
  split at runs
  · cases runs
    exact powerFits_tick fits
  · next c q _ =>
    exact powerFits_exec (s := { s with pending := q }) (fits.of_same rfl rfl fun _ => ⟨rfl, rfl⟩) runs

end

section
/-! SUPPORT. The drift estimate (R176, R177): a used sample's step, the range it stays in, and what a sleep in progress keeps. -/

namespace Sys2Proof.Machine

/-! ### A used sample (R177) -/

/-- A sample of enough sleep and of little deviation is used. -/
theorem driftSample_of_used {s : State} {e : Int} (slept : driftSleep ≤ s.pwc.accum) (near : e.natAbs ≤ driftDeviation) :
    s.driftSample e = ({ s with pwc := { s.pwc with
      accum := 0, sampled := true, change := s.pwc.change + 1, drift := driftAfter s.pwc.drift e s.pwc.accum } } :
      State).raise .power := by
  unfold State.driftSample
  dsimp only
  rw [if_neg (Nat.not_lt.2 slept), if_neg (Nat.not_lt.2 near)]
  rfl

theorem clampInt_mem {lo hi : Int} (ordered : lo ≤ hi) (x : Int) : lo ≤ clampInt lo hi x ∧ clampInt lo hi x ≤ hi :=
  ⟨le_max_left _ _, max_le ordered (min_le_left _ _)⟩

/-! ### The range (R177) -/

theorem driftOk_iff {s : State} : s.driftOk = true ↔ -driftMax ≤ s.pwc.drift ∧ s.pwc.drift ≤ driftMax := by
  simp [State.driftOk]

theorem driftOk_of_drift {s t : State} (same : t.pwc.drift = s.pwc.drift) (h : s.driftOk = true) : t.driftOk = true := by
  rw [driftOk_iff, same]
  exact driftOk_iff.1 h

theorem driftOk_driftSample {s : State} {e : Int} (h : s.driftOk = true) : (s.driftSample e).driftOk = true := by
  unfold State.driftSample
  dsimp only
  split
  · exact h
  · split
    · exact h
    · exact driftOk_iff.2 (clampInt_mem (by decide) _)

theorem drift_setPower (s : State) (p : Power) : (s.setPower p).pwc.drift = s.pwc.drift := by
  obtain ⟨q, frame, drift⟩ := setPower_frame s p
  rw [frame]
  exact drift

theorem commandSteady_driftOk : CommandSteady fun t => t.driftOk = true where
  toBlockSteady := blockSteady_of (Q := fun _ w _ => (decide (-driftMax ≤ w.drift) && decide (w.drift ≤ driftMax)) = true) id
  scan h := h
  fault h := h
  sampled h := driftOk_driftSample h
  napOver {s} h := driftOk_of_drift (drift_setPower s .run) h

theorem driftOk_finish {s0 s : State} (h : s.driftOk = true) : (s0.finish s).driftOk = true :=
  driftOk_of_drift (drift_finish s0 s) (commandSteady_driftOk.retried h)

theorem driftOk_finishEntry {s0 s : State} (h : s.driftOk = true) : (s0.finishEntry s).driftOk = true :=
  driftOk_of_drift (drift_finishEntry s0 s) (commandSteady_driftOk.retried h)

theorem driftOk_startPart {s : State} (h : s.driftOk = true) : s.startPart.driftOk = true := by
  by_cases version : s.setupVersion = 1
  · obtain ⟨p, n, m, q, starts⟩ := startPart_frame version
    rw [starts]
    exact h
  · rw [State.startPart, if_neg version]
    exact h

theorem driftOk_enterRunning {s : State} (h : s.driftOk = true) : s.enterRunning.driftOk = true := by
  have C := commandSteady_driftOk
  exact C.plan (v := s.enterRunning.rpl) (C.takeHeld (C.entrySearches (s := s) h))

theorem driftOk_stopPart {s : State} (h : s.driftOk = true) : s.stopPart.driftOk = true := by
  rw [stopPart_eq]
  obtain ⟨q, -, drift, stops⟩ := partStopped_frame s.blocksStopped.listsCleared
  rw [stops]
  have C := commandSteady_driftOk
  exact driftOk_of_drift drift (C.listsCleared (C.blocksStopped h))

theorem driftOk_enterWaking {s : State} (n : Nat) (h : s.driftOk = true) : (s.enterWaking n).driftOk = true :=
  driftOk_of_drift (enterWaking_power s n).2.2.2 h

theorem driftOk_writeStop {s : State} (h : s.driftOk = true) : s.writeStop.driftOk = true := by
  unfold State.writeStop
  split
  · exact h
  · split
    · exact driftOk_enterWaking _ h
    · exact h
    · exact driftOk_stopPart h

theorem driftOk_hostWrite {s : State} (word : BitVec 14) (lanes : BitVec 4) (data : Word) (h : s.driftOk = true) :
    (s.hostWrite word lanes data).driftOk = true := by
  obtain ⟨e, written, -⟩ := hostWrite_frame s word lanes data
  rw [written]
  exact h

theorem driftOk_writeScan {s : State} (w : LaneWord) (h : s.driftOk = true) : (s.writeScan w).driftOk = true :=
  keeps_ite (P := fun t => t.driftOk = true) (driftOk_enterWaking _ h) h

theorem driftOk_enterRun {s : State} (h : s.driftOk = true) : s.enterRun.driftOk = true := by
  have C := commandSteady_driftOk
  have caught : s.caughtUp.driftOk = true := C.caughtUp h
  rw [enterRun_eq]
  generalize s.caughtUp = t at caught ⊢
  split
  · exact driftOk_of_drift (s := t.stopPart) rfl (driftOk_stopPart caught)
  · exact driftOk_finishEntry (C.sampleLine caught)

theorem drift_tick (s : State) : s.tick.pwc.drift = s.pwc.drift := by
  unfold State.tick
  split
  · rfl
  · split
    · rfl
    · split <;> rfl

theorem driftOk_direct {s t : State} {dt : Nat} {g : State → Bool} {f : State → State} (h : s.driftOk = true)
    (runs : s.direct dt g f = .next t) (act : ∀ {u : State}, u.driftOk = true → (f u).driftOk = true) :
    t.driftOk = true := by
  have passed := driftOk_of_drift (drift_advance dt s) h
  unfold State.direct at runs
  cases runs
  exact keeps_ite (P := fun t => t.driftOk = true) (act passed) passed

theorem driftOk_exec {s t : State} {c : Instr} (h : s.driftOk = true) (runs : exec c s = .next t) : t.driftOk = true := by
  have C := commandSteady_driftOk
  have lined {u v : State} {b : Bool} (hu : u.driftOk = true) (hv : v.driftOk = true) :
      (if b then u.finish v else u).driftOk = true :=
    keeps_ite (P := fun t => t.driftOk = true) (driftOk_finish hv) hu
  by_cases block : isBlockCommand c = true
  · rcases blockRun_exec s block with time | ⟨-, v, acts, keeps⟩
    · rw [time] at runs
      cases runs
      exact driftOk_of_drift (drift_advance _ s) h
    · rw [acts] at runs
      cases runs
      exact driftOk_finish (keeps _ C (driftOk_of_drift (drift_advance _ s) h))
  cases c with unfold exec at runs
  | powerOn | resetPinAssert | softReset => exact driftOk_direct h runs fun _ => rfl
  | resetPinRelease | ignoredRegisterWrite | pendingWrite | enableWrite => exact driftOk_direct h runs id
  | clockLoRead => exact driftOk_direct h runs fun hu => keeps_ite (P := fun t => t.driftOk = true) hu hu
  | start => exact driftOk_direct h runs driftOk_startPart
  | runningEntry => exact driftOk_direct h runs fun hu => driftOk_finishEntry (driftOk_enterRunning hu)
  | stop => exact driftOk_direct h runs driftOk_writeStop
  | hostMemoryWrite => exact driftOk_direct h runs fun hu => driftOk_hostWrite _ _ _ hu
  | scanWrite => exact driftOk_direct h runs fun hu => driftOk_writeScan _ hu
  | txInhibitAssert => exact driftOk_direct h runs fun {u} hu => lined (u := u.withLine true) hu (C.inhibitOn hu)
  | txInhibitRelease => exact driftOk_direct h runs fun {u} hu => lined (u := u.withLine false) hu (C.inhibitOff hu)
  | napEnd => exact driftOk_direct h runs fun {u} hu => driftOk_of_drift (drift_setPower u .run) hu
  | slowTimerExpiry => exact driftOk_direct h runs fun hu => driftOk_enterWaking _ hu
  | wakingEnd => exact driftOk_direct h runs driftOk_enterRun
  | _ => exact absurd rfl block

end Sys2Proof.Machine

open Sys2Proof Sys2Proof.Machine

/-- Settles O56: a used sample by R177's arithmetic, the range by what a step can do of the estimate, and the rest by what the entries
to SLEEP and to WAKING read. -/
theorem driftSampleIsUsed : Obligations.DriftSampleIsUsed := by
  refine ⟨fun s e slept near => driftSample_of_used slept near, fun s t h runs => ?_, fun s => ⟨rfl, rfl⟩,
    fun s e => (driftSample_reads s e).2.2.1, fun s n => (enterWaking_power s n).2.2.1⟩
  unfold step at runs
  split at runs
  · cases runs
    exact driftOk_of_drift (drift_tick s) h
  · next c q _ => exact driftOk_exec (s := { s with pending := q }) h runs

end

section
/-! SUPPORT. The end of WAKING (R171, R174, R175, R178, R186): what the entry to RUN leaves of the host port, with every scan taken, the
line read and POWER raised; and the power state it ends in, by the SLEEP conditions and the gap to the next plan time. -/

namespace Sys2Proof.Machine

/-! ### The SLEEP conditions and the gap (R171) -/

theorem mem_allReasm (r : Fin 4) : r ∈ allReasm := by revert r; decide

/-- The SLEEP conditions but the last, one by one. -/
def State.mayRest (s : State) : Prop :=
  s.anyHolding = false ∧ (∀ x, s.headSending x = false) ∧ (∀ r : Fin 4, (s.txu.reasm[r]).state ≠ .collecting) ∧
    (∀ x, (s.sub x).listenEnd = none) ∧ ∀ (c : Fin 3) (w : User), w ∈ (s.ctx c).users → isSeek w.role = false

theorem sleepConditions_iff (s : State) : s.sleepConditions.all id = true ↔ s.mayRest ∧ s.exm.scan = 0 := by
  have all {α : Type} {l : List α} (every : ∀ a, a ∈ l) (p : α → Bool) : (!l.any p) = true ↔ ∀ a, p a = false := by
    simp [every]
  simp only [State.sleepConditions, List.all_cons, List.all_nil, id, Bool.and_true, Bool.and_eq_true, all mem_allSubs,
    all mem_allReasm, all mem_allCtx, beq_iff_eq, Bool.not_eq_true', State.mayRest, Ctx.hasSeekUser, List.any_eq_false,
    beq_eq_false_iff_ne, Option.isSome_eq_false_iff, Option.isNone_iff_eq_none, Bool.not_eq_true]
  tauto

theorem gapAtLeast_iff (s : State) (n : Nat) :
    s.gapAtLeast n = true ↔ ∀ p, s.nextPlan = some p → (s.now : Int) + n ≤ p := by
  unfold State.gapAtLeast
  split
  · next none => simp [none]
  · next p planned => simp [planned]

/-- The power state decided, case by case. -/
theorem decided_iff (s : State) :
    (s.decided = .sleep ↔ s.pwc.permit = .full ∧ s.sleepConditions.all id = true ∧ s.gapAtLeast sleepGap = true) ∧
      (s.decided = .nap ↔ s.decided ≠ .sleep ∧ s.pwc.permit ≠ .none ∧ s.gapAtLeast napGap = true) ∧
      (s.decided = .run ↔ s.decided ≠ .sleep ∧ s.decided ≠ .nap) := by
  unfold State.decided
  split
  · next sleeps => exact ⟨iff_of_true rfl sleeps, iff_of_false (by decide) fun h => h.1 rfl, by decide⟩
  · next wakes =>
    refine ⟨iff_of_false ?_ wakes, ?_⟩
    · split <;> decide
    · split
      · next naps => exact ⟨iff_of_true rfl ⟨by decide, naps⟩, by decide⟩
      · next runs => exact ⟨iff_of_false (by decide) fun h => runs h.2, by decide⟩

/-! ### What stands as the entry to RUN catches up (R175) -/

/-- POWER is among the bits PENDING. -/
def powerPending (m : BitVec 9) : Prop := m &&& areaMask .power ≠ 0

theorem powerPending_or {m : BitVec 9} (n : BitVec 9) (h : powerPending m) : powerPending (m ||| n) := by
  have bit : ∀ k : BitVec 9, k &&& areaMask .power ≠ 0 ↔ k.getLsbD 8 = true := by decide
  unfold powerPending at h ⊢
  rw [bit] at h ⊢
  rw [BitVec.getLsbD_or, h, Bool.true_or]

/-- The part as it was found, of what the entry to RUN leaves as it stands, in RUN and with POWER raised. -/
structure WokenAs (u : State) (e : Exm) (w : Pwc) (p : Pins) : Prop where
  mem      : e.mem = u.exm.mem
  run      : e.run = u.exm.run
  heldStop : e.heldStop = u.exm.heldStop
  pins     : p = u.pins
  raised   : powerPending e.attn
  inRun    : w.state = .run
  permit   : w.permit = u.pwc.permit

/-- A drift sample writes the power controller, and raises POWER at most. -/
theorem driftSample_frame (s : State) (e : Int) : ∃ w, s.driftSample e = { s with pwc := w } ∨
    s.driftSample e = ({ s with pwc := w } : State).raise .power := by
  unfold State.driftSample
  dsimp only
  split
  · exact ⟨_, .inl rfl⟩
  · split
    · exact ⟨_, .inr rfl⟩
    · exact ⟨_, .inr rfl⟩

theorem commandSteady_wokenAs (u : State) : CommandSteady fun t => WokenAs u t.exm t.pwc t.pins where
  toBlockSteady := blockSteady_of fun h => { h with raised := powerPending_or _ h.raised }
  scan h := { h with }
  fault h := { h with raised := powerPending_or _ h.raised }
  sampled {s e} h := by
    obtain ⟨power, permit, -, -⟩ := driftSample_reads s e
    obtain ⟨w, same | raised⟩ := driftSample_frame s e
    · rw [same] at power permit ⊢
      exact { h with inRun := power.trans h.inRun, permit := permit.trans h.permit }
    · rw [raised] at power permit ⊢
      exact { h with raised := powerPending_or _ h.raised, inRun := power.trans h.inRun, permit := permit.trans h.permit }
  napOver {s} h := by
    rw [State.setPower, if_pos h.inRun]
    exact h

theorem wokenAs_nowInRun (u : State) : WokenAs u u.nowInRun.exm u.nowInRun.pwc u.nowInRun.pins where
  mem := rfl
  run := rfl
  heldStop := rfl
  pins := rfl
  raised := by
    have bit : ∀ m : BitVec 9, powerPending (m ||| areaMask .power) := by unfold powerPending; decide
    exact bit u.exm.attn
  inRun := rfl
  permit := rfl

/-- The line sampled is the line as driven (R53, R54). -/
theorem inhibit_sampleLine (s : State) : s.sampleLine.rpl.inhibit = s.pins.txInhibit := by
  unfold State.sampleLine
  split
  · next same => exact same.symm
  · split
    · next on =>
      obtain ⟨l, outer⟩ := outer_inhibitOn s
      exact (congrArg Outer.inhibit outer).trans on.symm
    · next off =>
      obtain ⟨v, released⟩ := inhibitOff_frame s
      rw [released]
      exact (Bool.eq_false_of_not_eq_true off).symm

/-- A STOP taken after the catching up: STOPPED, in RUN, what else the host sees as it was. -/
theorem stopPart_wokenAs {u s : State} (h : WokenAs u s.exm s.pwc s.pins) (scan : s.exm.scan = 0) :
    s.stopPart.exm.scan = 0 ∧ powerPending s.stopPart.exm.attn ∧ s.stopPart.exm.mem = u.exm.mem ∧
      s.stopPart.exm.run = .stopped ∧ s.stopPart.exm.heldStop = false := by
  have W := commandSteady_wokenAs u
  have S := blockSteady_of (Q := fun e _ _ => e.scan = 0) id
  have stands := W.listsCleared (W.blocksStopped h)
  have empty := S.listsCleared (S.blocksStopped scan)
  rw [stopPart_eq]
  generalize s.blocksStopped.listsCleared = t at stands empty ⊢
  obtain ⟨q, -, -, stops⟩ := partStopped_frame t
  rw [stops]
  exact ⟨empty, stands.raised, stands.mem, rfl, rfl⟩

/-- What follows the entry leaves what the host sees, and the line. -/
theorem finishEntry_wokenAs {u s0 s : State} (h : WokenAs u s.exm s.pwc s.pins) (scan : s.exm.scan = 0) :
    (s0.finishEntry s).exm.scan = 0 ∧ powerPending (s0.finishEntry s).exm.attn ∧ (s0.finishEntry s).exm.mem = u.exm.mem ∧
      (s0.finishEntry s).exm.run = u.exm.run ∧ (s0.finishEntry s).rpl.inhibit = s.rpl.inhibit := by
  have stands := (commandSteady_wokenAs u).retried h
  have empty := (blockSteady_of (Q := fun e _ _ => e.scan = 0) id).retried scan
  have line : s.retried.rpl.inhibit = s.rpl.inhibit := congrArg Outer.inhibit (outer_retried s)
  obtain ⟨q, ends⟩ := finishEntry_frame s0 s
  rw [ends]
  dsimp only
  rw [exm_finish, rpl_finish]
  exact ⟨empty, stands.raised, stands.mem, stands.run, line⟩

/-- The power state after the entry, case by case, where no scan is held. -/
theorem power_finishEntry_iff (s0 : State) {s t : State} (entered : t = s0.finishEntry s) (run : s.pwc.state = .run)
    (scan : t.exm.scan = 0) :
    (t.pwc.state = .sleep ↔ t.pwc.permit = .full ∧ t.mayRest ∧ t.limitReached = false ∧
      (∀ p, t.nextPlan = some p → (t.now : Int) + 20000 ≤ p)) ∧
    (t.pwc.state = .nap ↔ t.pwc.state ≠ .sleep ∧ t.pwc.permit ≠ .none ∧ t.limitReached = false ∧
      (∀ p, t.nextPlan = some p → (t.now : Int) + 2000 ≤ p)) ∧
    (t.pwc.state = .run ↔ t.pwc.state ≠ .sleep ∧ t.pwc.state ≠ .nap) := by
  subst entered
  have ends := (power_finishEntry s0 run).2
  generalize s0.finishEntry s = t at ends scan ⊢
  cases limited : t.limitReached with
  | true =>
    rw [limited, if_pos rfl] at ends
    simp [ends]
  | false =>
    rw [limited] at ends
    obtain ⟨sleeps, naps, runs⟩ := decided_iff t
    rw [if_neg (by simp)] at ends
    rw [sleepConditions_iff, gapAtLeast_iff] at sleeps
    rw [gapAtLeast_iff] at naps
    rw [ends]
    refine ⟨sleeps.trans ?_, naps.trans ?_, runs⟩
    · simp [scan, sleepGap]
    · simp [napGap]

theorem execWakingEnd_of_over {s u : State} {dt : Nat} (time : u = s.advance dt) (alive : u.pins.resetHeld = false)
    (waking : u.pwc.state = .waking) (passed : u.pwc.wakeEnd ≤ u.now) : exec (.wakingEnd dt) s = .next u.enterRun := by
  subst time
  rw [pins_advance] at alive
  rw [power_advance] at waking
  exact direct_of_due (g := fun s => s.alive && s.pwc.state == .waking && decide (s.pwc.wakeEnd ≤ s.now))
    (by simp [State.alive, alive, waking, passed])

end Sys2Proof.Machine

open Sys2Proof Sys2Proof.Machine

/-- Settles O55: the catching up takes every scan and keeps what the host sees; then the STOP that is held, or the line and the
decision. -/
theorem wakingEnds : Obligations.WakingEnds := by
  intro s u dt time alive waking passed
  refine ⟨_, execWakingEnd_of_over time alive waking passed, ?_⟩
  have mem : u.exm.mem = s.exm.mem := mem_passed time
  have caught := (commandSteady_wokenAs u).caughtUp (wokenAs_nowInRun u)
  have empty : u.caughtUp.exm.scan = 0 := scan_takeHeld _
  rw [enterRun_eq, caught.heldStop, ← mem]
  generalize u.caughtUp = v at caught empty ⊢
  cases held : u.exm.heldStop with
  | true =>
    obtain ⟨scan, raised, kept, stopped, taken⟩ := stopPart_wokenAs caught empty
    rw [if_pos rfl]
    exact ⟨scan, congrArg Pins.txInhibit caught.pins, raised, kept, fun _ => ⟨stopped, power_stopPart v, taken⟩,
      fun unheld => absurd unheld (by simp)⟩
  | false =>
    have stands := (commandSteady_wokenAs u).sampleLine caught
    have unscanned := (blockSteady_of (Q := fun e _ _ => e.scan = 0) id).sampleLine empty
    obtain ⟨scan, raised, kept, run, line⟩ := finishEntry_wokenAs (s0 := v.sampleLine) stands unscanned
    obtain ⟨permit, -⟩ := power_finishEntry v.sampleLine stands.inRun
    rw [if_neg (by simp)]
    refine ⟨scan, ?_, raised, kept, fun unheld => absurd unheld (by simp), fun _ => ⟨run, permit.trans stands.permit, ?_⟩⟩
    · rw [line, inhibit_sampleLine, caught.pins]
    · exact power_finishEntry_iff v.sampleLine rfl stands.inRun scan

end

section
/-! SUPPORT. What a command can do to the host-written memory and to the run state (R181, R182, R191 to R194): only a host write
writes the memory, only a reset clears it; a part leaves STOPPED by START alone, and is RUNNING by the entry from STARTING. -/

namespace Sys2Proof.Machine

/-- What the command `c` may make of the host-written memory and the run state. -/
inductive MemRun (c : Instr) (e e' : Exm) : Prop
  | stands (mem : e'.mem = e.mem) (run : e'.run = e.run)
  | written (word : BitVec 14) (lanes : BitVec 4) (data : Word) (hosts : hostWritten (4 * word.toNat) = true)
      (mem : e'.mem = memWriteLanes e.mem (4 * word.toNat) lanes data) (run : e'.run = e.run)
  | reset (mem : e'.mem = []) (run : e'.run = .stopped)
  | stops (mem : e'.mem = e.mem) (run : e'.run = .stopped)
  | starts (dt : Nat) (start : c = .start dt) (mem : e'.mem = e.mem)
  | enters (starting : e.run = .starting) (mem : e'.mem = e.mem)

/-! ### What the blocks leave (R181, R186) -/

/-- The host-written memory and the run state stand as given. -/
def State.memRunIs (m : List Host.Cell) (r : RunState) (t : State) : Prop := t.exm.mem = m ∧ t.exm.run = r

theorem commandSteady_memRunIs (m : List Host.Cell) (r : RunState) : CommandSteady (State.memRunIs m r) where
  toBlockSteady := blockSteady_of (Q := fun e _ _ => e.mem = m ∧ e.run = r) id
  scan h := h
  fault h := h
  sampled {s e} h := by
    have same := outer_driftSample s e
    exact ⟨(congrArg Outer.mem same).trans h.1, (congrArg Outer.run same).trans h.2⟩
  napOver {s} h := by
    obtain ⟨q, frame, -⟩ := setPower_frame s .run
    rw [frame]
    exact h

theorem memRunIs_finish {s0 s : State} {m : List Host.Cell} {r : RunState} (h : s.memRunIs m r) : (s0.finish s).memRunIs m r := by
  obtain ⟨mem, -, -, run⟩ := host_finish s0 s
  exact ⟨mem.trans h.1, run.trans h.2⟩

theorem memRunIs_finishEntry {s0 s : State} {m : List Host.Cell} {r : RunState} (h : s.memRunIs m r) :
    (s0.finishEntry s).memRunIs m r := by
  obtain ⟨q, ends⟩ := finishEntry_frame s0 s
  rw [ends]
  exact memRunIs_finish h

/-- A state of the given memory and run state is one in which both stand. -/
theorem memRun_of_is {c : Instr} {s t : State} (h : t.memRunIs s.exm.mem s.exm.run) : MemRun c s.exm t.exm := .stands h.1 h.2

/-! ### START, the entries and STOP (R175, R192, R193) -/

theorem mem_startPart (s : State) : s.startPart.exm.mem = s.exm.mem := by
  by_cases version : s.setupVersion = 1
  · obtain ⟨p, n, m, q, starts⟩ := startPart_frame version
    rw [starts]
  · rw [State.startPart, if_neg version]

theorem mem_finishEntry_enterRunning (s : State) : (s.finishEntry s.enterRunning).exm.mem = s.exm.mem := by
  have C := commandSteady_memRunIs s.exm.mem .running
  have entered : s.enterRunning.memRunIs s.exm.mem .running :=
    C.plan (v := s.enterRunning.rpl) (C.takeHeld (C.entrySearches (s := s) ⟨rfl, rfl⟩))
  exact (memRunIs_finishEntry entered).1

theorem memRunIs_stopPart {s : State} {m : List Host.Cell} {r : RunState} (h : s.memRunIs m r) : s.stopPart.memRunIs m .stopped := by
  have C := commandSteady_memRunIs m r
  have cleared := C.listsCleared (C.blocksStopped h)
  rw [stopPart_eq]
  generalize s.blocksStopped.listsCleared = t at cleared ⊢
  obtain ⟨q, -, -, stops⟩ := partStopped_frame t
  rw [stops]
  exact ⟨cleared.1, rfl⟩

theorem memRun_writeStop {c : Instr} (s : State) : MemRun c s.exm s.writeStop.exm := by
  have stopped := memRunIs_stopPart (s := s) ⟨rfl, rfl⟩
  unfold State.writeStop
  split
  · exact .stands rfl rfl
  · split
    · exact .stands rfl rfl
    · exact .stands rfl rfl
    · exact .stops stopped.1 stopped.2

theorem memRun_enterRun {c : Instr} (s : State) : MemRun c s.exm s.enterRun.exm := by
  have C := commandSteady_memRunIs s.exm.mem s.exm.run
  have caught : s.caughtUp.memRunIs s.exm.mem s.exm.run := C.caughtUp ⟨rfl, rfl⟩
  rw [enterRun_eq]
  generalize s.caughtUp = v at caught ⊢
  split
  · obtain ⟨mem, run⟩ := memRunIs_stopPart caught
    exact .stops mem run
  · exact memRun_of_is (memRunIs_finishEntry (C.sampleLine caught))

/-! ### The host's writes (R174, R182, R183, R185) -/

theorem memRun_hostWrite {c : Instr} (s : State) (word : BitVec 14) (lanes : BitVec 4) (data : Word) :
    MemRun c s.exm (s.hostWrite word lanes data).exm := by
  unfold State.hostWrite
  dsimp only
  split
  · next hosts => exact .written word lanes data hosts rfl rfl
  · have dropped : (s.dropWrite (4 * word.toNat) lanes).memRunIs s.exm.mem s.exm.run := by
      unfold State.dropWrite
      exact keeps_ite (keeps_ite ⟨rfl, rfl⟩ ⟨rfl, rfl⟩) ⟨rfl, rfl⟩
    exact memRun_of_is (keeps_ite (P := State.memRunIs s.exm.mem s.exm.run) ⟨rfl, rfl⟩ dropped)

theorem memRun_writeScan {c : Instr} (s : State) (w : LaneWord) : MemRun c s.exm (s.writeScan w).exm :=
  memRun_of_is (keeps_ite (P := State.memRunIs s.exm.mem s.exm.run) ⟨rfl, rfl⟩ ⟨rfl, rfl⟩)

/-! ### Every command -/

theorem memRun_direct {c : Instr} {s t : State} {dt : Nat} {g : State → Bool} {f : State → State}
    (runs : s.direct dt g f = .next t) (act : ∀ u : State, g u = true → MemRun c u.exm (f u).exm) : MemRun c s.exm t.exm := by
  rw [← exm_advance dt s]
  unfold State.direct at runs
  cases runs
  split
  · next due => exact act _ due
  · exact .stands rfl rfl

theorem memRun_block {c : Instr} {s t : State} (block : isBlockCommand c = true) (runs : exec c s = .next t) :
    MemRun c s.exm t.exm := by
  rw [← exm_advance (delay c) s]
  rcases blockRun_exec s block with time | ⟨-, v, acts, keeps⟩
  · rw [time] at runs
    cases runs
    exact .stands rfl rfl
  · rw [acts] at runs
    cases runs
    exact memRun_of_is (memRunIs_finish (keeps _ (commandSteady_memRunIs _ _) ⟨rfl, rfl⟩))

/-- What every command can do to the host-written memory and the run state. -/
theorem memRun_exec {c : Instr} {s t : State} (runs : exec c s = .next t) : MemRun c s.exm t.exm := by
  by_cases block : isBlockCommand c = true
  · exact memRun_block block runs
  cases c with unfold exec at runs
  | powerOn | resetPinAssert | softReset => exact memRun_direct runs fun _ _ => .reset rfl rfl
  | resetPinRelease | ignoredRegisterWrite | pendingWrite | enableWrite => exact memRun_direct runs fun _ _ => .stands rfl rfl
  | clockLoRead =>
    exact memRun_direct runs fun u _ => memRun_of_is (keeps_ite (P := State.memRunIs u.exm.mem u.exm.run) ⟨rfl, rfl⟩ ⟨rfl, rfl⟩)
  | start dt => exact memRun_direct runs fun u _ => .starts dt rfl (mem_startPart u)
  | runningEntry =>
    refine memRun_direct runs fun u due => .enters ?_ (mem_finishEntry_enterRunning u)
    rw [Bool.and_eq_true, beq_iff_eq] at due
    exact due.2
  | stop => exact memRun_direct runs fun u _ => memRun_writeStop u
  | hostMemoryWrite => exact memRun_direct runs fun u _ => memRun_hostWrite u _ _ _
  | scanWrite => exact memRun_direct runs fun u _ => memRun_writeScan u _
  | txInhibitAssert =>
    refine memRun_direct runs fun u _ => memRun_of_is (keeps_ite (memRunIs_finish ?_) ⟨rfl, rfl⟩)
    exact (commandSteady_memRunIs u.exm.mem u.exm.run).inhibitOn ⟨rfl, rfl⟩
  | txInhibitRelease =>
    refine memRun_direct runs fun u _ => memRun_of_is (keeps_ite (memRunIs_finish ?_) ⟨rfl, rfl⟩)
    exact (commandSteady_memRunIs u.exm.mem u.exm.run).inhibitOff ⟨rfl, rfl⟩
  | napEnd => exact memRun_direct runs fun u _ => memRun_of_is ((commandSteady_memRunIs u.exm.mem u.exm.run).napOver ⟨rfl, rfl⟩)
  | slowTimerExpiry => exact memRun_direct runs fun _ _ => .stands rfl rfl
  | wakingEnd => exact memRun_direct runs fun u _ => memRun_enterRun u
  | _ => exact absurd rfl block

theorem exm_tick (s : State) : s.tick.exm = s.exm := by
  unfold State.tick
  split
  · rfl
  · split
    · rfl
    · split <;> rfl

/-! ### The canonical form (R181, R182) -/

theorem memOk_of_mem {s t : State} (same : t.exm.mem = s.exm.mem) (h : s.memOk = true) : t.memOk = true := by
  unfold State.memOk
  rw [same]
  exact h

theorem memOk_of_memRun {c : Instr} {s t : State} (h : s.memOk = true) (moves : MemRun c s.exm t.exm) : t.memOk = true := by
  cases moves with
  | stands mem | stops mem | starts _ _ mem | enters _ mem => exact memOk_of_mem mem h
  | written word lanes data hosts mem =>
    unfold State.memOk
    rw [mem]
    exact Laws.Memory.memOk_memWriteLanes h hosts
  | reset mem => exact memOk_of_mem (s := State.reset) mem Laws.Memory.memOk_reset

end Sys2Proof.Machine

open Sys2Proof Sys2Proof.Machine

/-- Settles O7: a tick leaves the memory, and of what a command can do to it a host write alone writes it, in host-written words. -/
theorem stepKeepsMemory : Obligations.StepKeepsMemory := by
  intro s t ok runs
  unfold step at runs
  split at runs
  · cases runs
    exact memOk_of_mem (congrArg Exm.mem (exm_tick s)) ok
  · next c q _ => exact memOk_of_memRun (s := { s with pending := q }) ok (memRun_exec runs)

/-- Settles O13: what else than START may change the run state of a part finds it STARTING or leaves it STOPPED. -/
theorem stoppedUntilStart : Obligations.StoppedUntilStart := by
  intro c s t stopped unstarted runs
  cases memRun_exec runs with
  | stands _ run | written _ _ _ _ _ run => exact run.trans stopped
  | reset _ run | stops _ run => exact run
  | starts dt start => exact absurd start (unstarted dt)
  | enters starting =>
    rw [stopped] at starting
    contradiction

end

section
/-! SUPPORT. What a command of the blocks leaves of the host's side (R181, R185, R187, R194): what the host wrote, the registers it
writes, the pins, the run state, the queue and local time; but for a scan take, the scan-pending mask and the fault record. -/

namespace Sys2Proof.Machine

/-- The outer part with what a command of the blocks may change left blank: the power state and the slow timer, the commands sent,
the link status, and the mask and the fault record where it is a take. -/
def Outer.hostSide (take : Bool) (v : Outer) : Outer :=
  { v with
    scan := if take then 0 else v.scan
    fault := if take then FaultRecord.reset else v.fault
    power := .run, timer := 0, target := 0, usedDrift := 0, idleDue := true, sent := [], total := 0, silent := 0 }

def State.hostSide (take : Bool) (s : State) : Outer := s.outer.hostSide take

variable {take : Bool} {s t : State}

theorem hostSide_of_outer (same : t.outer = s.outer) : t.hostSide take = s.hostSide take := congrArg (Outer.hostSide take) same

/-! ### What follows a command (R171, R178) -/

theorem hostSide_setPower (s : State) (p : Power) : (s.setPower p).hostSide take = s.hostSide take := by
  unfold State.setPower
  split
  · rfl
  · rfl

theorem hostSide_sleepDecision (s : State) : s.sleepDecision.hostSide take = s.hostSide take := by
  unfold State.sleepDecision
  split
  · rfl
  · split
    · exact hostSide_setPower s .nap
    · exact hostSide_setPower s .run

theorem hostSide_finish (s0 s : State) : (s0.finish s).hostSide take = s.hostSide take := by
  have retried : s.retried.refresh.hostSide take = s.hostSide take := hostSide_of_outer (outer_retried s)
  rw [finish_decides]
  refine Eq.trans ?_ retried
  split
  · exact hostSide_sleepDecision s.retried.refresh
  · rfl

/-! ### Reports and commands sent (R39, R47 to R49) -/

theorem hostSide_linkUpd (s : State) (m n : Nat) : (s.linkUpd m n).hostSide take = s.hostSide take := by
  unfold State.linkUpd
  split
  · rfl
  · rfl

theorem hostSide_concludeDone (s : State) (h : Handle) : (s.concludeDone h).hostSide take = s.hostSide take :=
  (hostSide_of_outer (outer_conclude _ h .done)).trans (hostSide_linkUpd s _ _)

theorem hostSide_concludeSilent (s : State) (o : Occ) : (s.concludeSilent o).hostSide take = s.hostSide take :=
  (congrArg (Outer.hostSide take) (outer_concludeSilent s o)).trans (hostSide_linkUpd s _ _)

theorem hostSide_beaconReport (s : State) (o : Occ) (b : Beacon) : (s.beaconReport o b).hostSide take = s.hostSide take := by
  rw [beaconReport_eq]
  exact (hostSide_of_outer (outer_windowBatches _ o _)).trans
    ((hostSide_concludeDone _ o.handle).trans (hostSide_of_outer (outer_routeBeacon s o b)))

theorem hostSide_issue (s : State) (o : Occ) : (s.issue o).hostSide take = s.hostSide take := by
  unfold State.issue
  refine (hostSide_setPower _ .run).trans ?_
  cases s.rpl.idleDue <;> rfl

/-! ### Contexts lost, deadlines, retries (R27, R28, R67) -/

theorem outer_tellLoss (s : State) (u : User) : (s.tellLoss u).outer = s.outer := by
  unfold State.tellLoss
  split
  · split
    · exact outer_linkFailure s u.sub
    · exact outer_linkFailure s u.sub
    · exact outer_enterSearching s u.sub .cellLost
    · rfl
  · exact outer_failHandover s u.sub
  · exact outer_dropReselection s u.sub
  · exact outer_nextAttempt s u.sub

theorem outer_loseCell (s : State) (c : Fin 3) : (s.loseCell c).outer = s.outer :=
  (outer_foldl outer_tellLoss _ _).trans (outer_freeCtx s c)

theorem outer_notFound (s : State) (c : Fin 3) (r : Role) (x : Sub) : (s.notFound c r x).outer = s.outer := by
  unfold State.notFound
  cases r with
  | search => exact (outer_nextAttempt _ x).trans (outer_removeUser s c .search x)
  | verify => exact (outer_quietMark _ x _ _).trans (outer_removeUser s c .verify x)
  | target => exact (outer_failHandover _ x).trans (outer_removeUser s c .target x)
  | serving => exact outer_removeUser s c .serving x

theorem outer_retryLost (s : State) (x : Sub) : (s.retryLost x).outer = s.outer := outer_beginPass _ x

/-! ### Every command of the blocks -/

theorem hostSide_block {dt : Nat} {g : State → Bool} {f : State → State} (runs : s.block dt g f = .next t)
    (act : ∀ u : State, (f u).hostSide take = u.hostSide take) : t.hostSide take = (s.advance dt).hostSide take := by
  unfold State.block State.direct at runs
  cases runs
  split
  · exact (hostSide_finish _ _).trans (act _)
  · rfl

theorem hostSide_report {dt : Nat} {h : Handle} {expects : Kind → Bool} {act : Occ → State → State}
    (runs : s.report dt h expects act = .next t)
    (acts : ∀ (o : Occ) (u : State), (act o u).hostSide take = u.hostSide take) :
    t.hostSide take = (s.advance dt).hostSide take := by
  refine hostSide_block runs fun u => ?_
  split
  · exact acts _ u
  · rfl

/-- An act that leaves the whole outer part. -/
theorem hostSide_block_of_outer {dt : Nat} {g : State → Bool} {f : State → State} (runs : s.block dt g f = .next t)
    (act : ∀ u : State, (f u).outer = u.outer) : t.hostSide take = (s.advance dt).hostSide take :=
  hostSide_block runs fun u => hostSide_of_outer (act u)

/-- A take leaves the outer part but for the mask and the fault record. -/
theorem hostSide_take {dt : Nat} {g : State → Bool} {f : State → State} (runs : s.block dt g f = .next t)
    (act : ∀ u : State, ∃ m r, (f u).outer = { u.outer with scan := m, fault := r }) :
    t.hostSide true = (s.advance dt).hostSide true :=
  hostSide_block runs fun u => by
    obtain ⟨m, r, taken⟩ := act u
    exact (congrArg (Outer.hostSide true) taken).trans rfl

theorem hostSide_exec {c : Instr} (block : isBlockCommand c = true) (runs : exec c s = .next t) :
    t.hostSide (isTake c) = (s.advance (delay c)).hostSide (isTake c) := by
  cases c with unfold exec at runs
  | powerOn | resetPinAssert | resetPinRelease | softReset | start | runningEntry | stop | hostMemoryWrite
  | ignoredRegisterWrite | scanWrite | pendingWrite | enableWrite | clockLoRead | txInhibitAssert | txInhibitRelease
  | napEnd | slowTimerExpiry | wakingEnd => contradiction
  | subsScanTake => exact hostSide_take runs fun u => ⟨_, _, outer_takeSubs u⟩
  | cellsScanTake => exact hostSide_take runs fun u => ⟨_, _, outer_takeCells u⟩
  | callsScanTake => exact hostSide_take runs fun u => ⟨_, _, outer_takeCalls u⟩
  | outboxScanTake => exact hostSide_take runs fun u => ⟨_, _, outer_takeOutbox u⟩
  | inboxScanTake => exact hostSide_take runs fun u => ⟨_, _, outer_takeInbox u⟩
  | faultScanTake => exact hostSide_take runs fun u => ⟨_, _, (takeFault_fault u).2.1⟩
  | noEffectScanTake => exact hostSide_take runs fun u => ⟨_, _, rfl⟩
  | commandIssue =>
    refine hostSide_block runs fun u => ?_
    split
    exacts [hostSide_issue u _, rfl]
  | occupancySilent =>
    refine hostSide_block runs fun u => ?_
    split
    exacts [hostSide_concludeSilent u _, rfl]
  | beaconReport => exact hostSide_report runs fun o u => hostSide_beaconReport u o _
  | nothingReport =>
    refine hostSide_report runs fun o u => (hostSide_concludeDone _ o.handle).trans (hostSide_of_outer ?_)
    exact (outer_missWindows _ o).trans (outer_missBeacon u o)
  | blockReport =>
    exact hostSide_report runs fun o u => (hostSide_concludeDone _ o.handle).trans (hostSide_of_outer (outer_routeBlock u o _))
  | levelReport =>
    exact hostSide_report runs fun o u => (hostSide_concludeDone _ o.handle).trans (hostSide_of_outer (outer_routeLevel u o _))
  | sentReport => exact hostSide_report runs fun o u => hostSide_concludeDone u o.handle
  | planningEvent =>
    refine hostSide_block_of_outer runs fun u => ?_
    split
    exacts [outer_offer u _ _, rfl]
  | windowedPlanningEvent =>
    refine hostSide_block_of_outer runs fun u => ?_
    split
    exacts [outer_offer u _ _, rfl]
  | seekPlanningEvent => exact hostSide_block_of_outer runs fun u => outer_seekEvent u _
  | frameBaseWrite =>
    refine hostSide_block_of_outer runs fun u => ?_
    split
    exacts [rfl, rfl]
  | downlinkCellWrite =>
    refine hostSide_block_of_outer runs fun u => ?_
    split
    exacts [outer_downWrite u _ _, rfl]
  | holdoverEntry => exact hostSide_block_of_outer runs fun _ => rfl
  | loss => exact hostSide_block_of_outer runs fun u => outer_loseCell u _
  | windowsMissed => exact hostSide_block_of_outer runs fun u => outer_enterSearching u _ _
  | failRun => exact hostSide_block_of_outer runs fun u => outer_enterSearching u _ _
  | linkFailure => exact hostSide_block_of_outer runs fun u => outer_linkFailure u _
  | seekDeadline => exact hostSide_block_of_outer runs fun u => outer_notFound u _ _ _
  | lostRetry => exact hostSide_block_of_outer runs fun u => outer_retryLost u _
  | listenPeriodEnd => exact hostSide_block_of_outer runs fun u => outer_endListen u _
  | ringingExpiry | accessTimerExpiry | releaseTimerExpiry => exact hostSide_block_of_outer runs fun u => outer_endCall u _ _ _
  | reportTimerExpiry => exact hostSide_block_of_outer runs fun u => outer_reportTimer u _ _
  | leave =>
    refine hostSide_block_of_outer runs fun u => ?_
    split
    exacts [outer_leaveOld u _ _ _ _ _, rfl]
  | arriveTimeout => exact hostSide_block_of_outer runs fun u => outer_failHandover u _
  | secondFailure => exact hostSide_block_of_outer runs fun u => outer_secondFailure u _
  | ackWindowClose =>
    refine hostSide_block_of_outer runs fun u => ?_
    split
    exacts [outer_closeWindow u _ _, rfl]
  | noAck | restartLimit | pauseExpiry => exact hostSide_block_of_outer runs fun u => outer_failHead u _ _
  | reassemblyTimeout => exact hostSide_block_of_outer runs fun _ => rfl

/-! ### Time (R17) -/

/-- Time alone leaves the settings of the setup record. -/
theorem settings_advance (dt : Nat) (s : State) :
    (s.advance dt).pwc.permit = s.pwc.permit ∧ (s.advance dt).pwc.maxSleep = s.pwc.maxSleep := by
  unfold State.advance
  split
  · exact ⟨rfl, rfl⟩
  · split <;> exact ⟨rfl, rfl⟩

/-- What stands of the host's side, item by item. -/
theorem kept_of_hostSide {u : State} (same : t.hostSide take = u.hostSide take) :
    t.exm.mem = u.exm.mem ∧ t.exm.run = u.exm.run ∧ t.exm.badSetup = u.exm.badSetup ∧ t.exm.enable = u.exm.enable ∧
      t.exm.latch = u.exm.latch ∧ t.exm.readData = u.exm.readData ∧ t.exm.heldStop = u.exm.heldStop ∧ t.pins = u.pins ∧
      t.pending = u.pending ∧ t.now = u.now ∧ t.pwc.permit = u.pwc.permit ∧ t.pwc.maxSleep = u.pwc.maxSleep ∧
      t.rpl.inhibit = u.rpl.inhibit ∧ (take = false → t.exm.scan = u.exm.scan ∧ t.exm.fault = u.exm.fault) := by
  refine ⟨congrArg Outer.mem same, congrArg Outer.run same, congrArg Outer.badSetup same, congrArg Outer.enable same,
    congrArg Outer.latch same, congrArg Outer.readData same, congrArg Outer.heldStop same, congrArg Outer.pins same,
    congrArg Outer.pending same, congrArg Outer.localTime same, congrArg Outer.permit same, congrArg Outer.maxSleep same,
    congrArg Outer.inhibit same, fun other => ?_⟩
  subst other
  exact ⟨congrArg Outer.scan same, congrArg Outer.fault same⟩

end Sys2Proof.Machine

open Sys2Proof Sys2Proof.Machine

/-- Settles O5: every act of the blocks leaves the outer part but for its blanks, and so does what follows it. -/
theorem blockCommandsKeepHostSide : Obligations.BlockCommandsKeepHostSide := by
  intro c s t block runs
  have kept := kept_of_hostSide (hostSide_exec block runs)
  obtain ⟨permit, maxSleep⟩ := settings_advance (delay c) s
  rw [exm_advance, pins_advance, pending_advance, rpl_advance, permit, maxSleep] at kept
  exact ⟨fun a => congrArg (memRead · a) kept.1, kept⟩

end

section
/-! SUPPORT. What a reset leaves (R194): every record at its reset value, so that every word of exchange memory reads 0. -/

namespace Sys2Proof.Machine

/-! ### The records (R18, R56, R77, R110, R130, R131, R151, R163, R168) -/

theorem ctx_reset (c : Fin 3) : State.reset.ctx c = Ctx.reset := Vector.getElem_replicate _
theorem sub_reset (x : Sub) : State.reset.sub x = SubRec.reset := by cases x <;> rfl
theorem machine_reset (x : Sub) : State.reset.machine x = HoMachine.reset := by cases x <;> rfl
theorem call_reset (k : Fin 4) : State.reset.call k = Call.reset := Vector.getElem_replicate _
theorem slot_reset (i : Fin 8) : State.reset.slot i = OutSlot.reset := Vector.getElem_replicate _
theorem inbox_reset (i : Fin 8) : State.reset.txu.inbox[i] = InSlot.reset := Vector.getElem_replicate _
theorem reasm_reset (r : Fin 4) : State.reset.txu.reasm[r] = Reasm.idle := Vector.getElem_replicate _
theorem downCell_reset (i : Fin 8) : Call.reset.cells[i] = DownCell.reset := Vector.getElem_replicate _
theorem cell_reset (x : Sub) (r : Fin 18) : State.reset.cell x r = CellRec.reset := by
  cases x <;> exact Vector.getElem_replicate _

/-! ### The words of the records (chapter 12) -/

theorem faultWord_reset (w : Nat) : faultWord FaultRecord.reset Rpl.reset w = 0 := by
  unfold faultWord
  split <;> rfl

theorem powerWord_reset (w : Nat) : powerWord Pwc.reset w = 0 := by
  unfold powerWord
  split <;> rfl

theorem subWord_reset (w : Nat) : subWord SubRec.reset w = 0 := by
  unfold subWord
  split
  case h_15 => exact ite_self 0
  all_goals rfl

theorem cellWord_reset (w : Nat) : cellWord CellRec.reset w = 0 := by
  unfold cellWord
  split <;> rfl

theorem callWord_reset (w : Nat) : callWord CallRec.reset w = 0 := by
  unfold callWord
  split
  case h_17 =>
    split
    · next e held =>
      obtain ⟨inRange, rfl⟩ := Vector.getElem?_eq_some_iff.1 held
      rw [show CallRec.reset.status[w - 23] = UpEntry.empty from Vector.getElem_replicate inRange]
      exact ite_self 0
    · rfl
  all_goals rfl

/-- A string of zero bytes reads 0 in every word, past its end too. -/
theorem bytesWord_zeros (n i : Nat) : bytesWord (List.replicate n 0) i = 0 := by
  have zero (j : Nat) : (List.replicate n (0 : Byte)).getD j 0 = 0 := by
    rw [List.getD_eq_getElem?_getD, List.getElem?_getD_replicate_default_eq]
  unfold bytesWord
  rw [zero, zero, zero, zero]
  rfl

theorem downCellWord_reset (w : Nat) : downCellWord DownCell.reset w = 0 := by
  unfold downCellWord
  split
  case h_6 =>
    split
    · exact bytesWord_zeros 40 _
    · rfl
  all_goals rfl

theorem outWord_reset (w : Nat) : outWord OutSlot.reset w = 0 := by
  unfold outWord
  split <;> rfl

theorem inWord_reset (w : Nat) : inWord InSlot.reset w = 0 := by
  unfold inWord
  split
  case h_6 =>
    split
    · exact bytesWord_zeros 176 _
    · rfl
  all_goals rfl

theorem partWord_reset (off : Nat) : State.reset.partWord off = 0 := by
  unfold State.partWord
  split
  · rfl
  · exact faultWord_reset _
  · exact powerWord_reset _
  · rw [sub_reset]
    exact subWord_reset _
  · rw [cell_reset]
    exact cellWord_reset _
  · rw [call_reset]
    exact callWord_reset _
  · rw [call_reset, downCell_reset]
    exact downCellWord_reset _
  · rw [slot_reset]
    exact outWord_reset _
  · rw [inbox_reset]
    exact inWord_reset _
  · rfl

/-- Every word of exchange memory reads 0 after a reset (R181, R194). -/
theorem readWord_reset (w : BitVec 14) : State.reset.readWord w = 0 := by
  unfold State.readWord
  dsimp only
  rw [partWord_reset]
  split
  · rfl
  · split <;> rfl

/-! ### The commands (R191, R194) -/

/-- What a reset keeps of the part is of no block: the time before it does not matter. -/
theorem resetPart_advance (dt : Nat) (s : State) : (s.advance dt).resetPart = s.resetPart := by
  simp [State.resetPart]

theorem exec_powerOn (s : State) (dt : Nat) : exec (.powerOn dt) s = .next s.resetPart := by
  change execPowerOn dt s = _
  rw [execPowerOn, direct_of_due rfl, resetPart_advance]

theorem exec_resetPinAssert (s : State) (dt : Nat) :
    exec (.resetPinAssert dt) s = .next { s.resetPart with pins := { s.pins with resetHeld := true } } := by
  change execResetPinAssert dt s = _
  rw [execResetPinAssert, direct_of_due rfl, resetPart_advance, pins_advance]

theorem exec_softReset {s : State} (dt : Nat) (b : Bool) (alive : s.pins.resetHeld = false) :
    exec (.softReset dt b) s = .next s.resetPart := by
  change execSoftReset dt b s = _
  rw [execSoftReset, direct_of_due (alive_advance dt alive), resetPart_advance]

/-- No time passes while the RESET pin is asserted. -/
theorem advance_of_held {s : State} (dt : Nat) (held : s.pins.resetHeld = true) : s.advance dt = s := if_pos held

theorem exec_resetPinRelease {s : State} (dt : Nat) (held : s.pins.resetHeld = true) :
    exec (.resetPinRelease dt) s = .next { s with pins := { s.pins with resetHeld := false } } := by
  have time := advance_of_held dt held
  change execResetPinRelease dt s = _
  rw [execResetPinRelease, direct_of_due (by rw [time, held]), time]

end Sys2Proof.Machine

open Sys2Proof Sys2Proof.Machine

/-- Settles O12: each reset gives `State.resetPart` but for the pins, and a reset part reads as its records do. -/
theorem resetCommandsResetThePart : Obligations.ResetCommandsResetThePart := by
  refine ⟨fun s dt => ⟨exec_powerOn s dt, exec_resetPinAssert s dt, exec_resetPinRelease dt, fun b => exec_softReset dt b⟩, ?_⟩
  refine ⟨readWord_reset, rfl, rfl, rfl, rfl, rfl, rfl, rfl, rfl, rfl, rfl, rfl, fun c => ?_, fun x => ?_, fun x => ?_,
    fun k => ?_, fun i => ?_, fun r => ?_⟩
  · rw [ctx_reset]; rfl
  · rw [sub_reset]; rfl
  · rw [machine_reset]; rfl
  · rw [call_reset]; rfl
  · rw [slot_reset]; rfl
  · rw [reasm_reset]; rfl

/-- Settles O6: each invariant speaks of records that a reset leaves at values written out. -/
theorem resetMeetsInvariants : Obligations.ResetMeetsInvariants :=
  ⟨Laws.Memory.memOk_reset, by decide, by decide, by decide, by decide, by decide, by decide, by decide, by decide⟩

end

section
/-! SUPPORT. The host's writes and reads (R182, R183, R187, R190): what each leaves after its time, and the words of the port. -/

namespace Sys2Proof.Machine

variable {s u : State} {dt : Nat}

/-! ### Writes of exchange memory (R182, R183) -/

theorem exec_hostMemoryWrite {word : BitVec 14} {lanes : BitVec 4} {data : Word} (time : u = s.advance dt)
    (alive : s.pins.resetHeld = false) :
    exec (.hostMemoryWrite dt word lanes data) s = .next (u.hostWrite word lanes data) := by
  subst time
  exact direct_of_due (f := fun u => u.hostWrite word lanes data) (alive_advance dt alive)

/-- A host write is ignored while the RESET pin is asserted (R182). -/
theorem exec_hostMemoryWrite_of_held {word : BitVec 14} {lanes : BitVec 4} {data : Word} (held : s.pins.resetHeld = true) :
    exec (.hostMemoryWrite dt word lanes data) s = .next s := by
  have time := advance_of_held dt held
  change execHostMemoryWrite dt word lanes data s = _
  rw [execHostMemoryWrite, direct_of_not_due (by simp [time, State.alive, held]), time]

theorem hostWrite_of_hosts {word : BitVec 14} (s : State) (lanes : BitVec 4) (data : Word)
    (hosts : hostWritten (4 * word.toNat) = true) : s.hostWrite word lanes data =
      { s with exm := { s.exm with mem := memWriteLanes s.exm.mem (4 * word.toNat) lanes data } } := if_pos hosts

theorem hostWrite_of_dropped {word : BitVec 14} {lanes : BitVec 4} (s : State) (data : Word)
    (other : hostWritten (4 * word.toNat) = false) (enabled : lanes ≠ 0) :
    s.hostWrite word lanes data = s.dropWrite (4 * word.toNat) lanes := by
  unfold State.hostWrite
  dsimp only
  rw [if_neg (by simp [other]), if_neg enabled]

/-- A dropped write is captured while no fault is held. -/
theorem dropWrite_of_unheld (off : Nat) (lanes : BitVec 4) (unheld : s.exm.fault.held = false) :
    s.dropWrite off lanes = s.faultUpd fun f =>
      { f with held := true, stamp := f.stamp + 1, offset := BitVec.ofNat 16 off, area := areaOf off, lanes := lanes,
               time := s.now } := if_neg (by simp [unheld])

/-- A dropped write is counted while a fault is held, up to the count's width. -/
theorem dropWrite_of_held (off : Nat) (lanes : BitVec 4) (held : s.exm.fault.held = true) :
    s.dropWrite off lanes =
      if s.exm.fault.drops < 65535 then s.faultUpd fun f => { f with drops := f.drops + 1 } else s := if_pos held

/-! ### Reads (R190) -/

theorem now_advance_of_asleep (asleep : s.pwc.state = .sleep) : (s.advance dt).now = s.now := by
  unfold State.advance
  rw [if_pos asleep]
  split
  · rfl
  · rfl

theorem now_advance_of_awake (alive : s.pins.resetHeld = false) (awake : s.pwc.state ≠ .sleep) (fits : s.now + dt < 2 ^ 48) :
    (s.advance dt).now = s.now + dt := by
  unfold State.advance
  rw [if_neg (by simp [alive]), if_neg awake]
  exact if_pos fits

theorem exec_clockLoRead (time : u = s.advance dt) (alive : s.pins.resetHeld = false) :
    exec (.clockLoRead dt) s = .next { u with exm := { u.exm with
      readData := BitVec.ofNat 32 u.now, latch := BitVec.ofNat 16 (u.now / 2 ^ 32) } } := by
  subst time
  change execClockLoRead dt s = _
  rw [execClockLoRead, direct_of_due rfl, if_pos (alive_advance dt alive)]

theorem ofNat_mod_two_pow (w n : Nat) : BitVec.ofNat w (n % 2 ^ w) = BitVec.ofNat w n :=
  BitVec.eq_of_toNat_eq (by simp)

/-! ### START and STOP (R184, R190) -/

/-- The clock latch and the fault record stand as given. -/
def State.latchFaultIs (l : BitVec 16) (f : FaultRecord) (t : State) : Prop := t.exm.latch = l ∧ t.exm.fault = f

theorem blockSteady_latchFaultIs (l : BitVec 16) (f : FaultRecord) : BlockSteady (State.latchFaultIs l f) :=
  blockSteady_of (Q := fun e _ _ => e.latch = l ∧ e.fault = f) id

theorem latchFaultIs_startPart (s : State) : s.startPart.latchFaultIs s.exm.latch s.exm.fault := by
  by_cases version : s.setupVersion = 1
  · obtain ⟨p, n, m, q, starts⟩ := startPart_frame version
    rw [starts]
    exact ⟨rfl, rfl⟩
  · rw [State.startPart, if_neg version]
    exact ⟨rfl, rfl⟩

theorem latchFaultIs_stopPart (s : State) : s.stopPart.latchFaultIs s.exm.latch s.exm.fault := by
  have B := blockSteady_latchFaultIs s.exm.latch s.exm.fault
  have cleared := B.listsCleared (B.blocksStopped (s := s) ⟨rfl, rfl⟩)
  rw [stopPart_eq]
  generalize s.blocksStopped.listsCleared = t at cleared ⊢
  obtain ⟨q, -, -, stops⟩ := partStopped_frame t
  rw [stops]
  exact cleared

theorem latchFaultIs_writeStop (s : State) : s.writeStop.latchFaultIs s.exm.latch s.exm.fault := by
  unfold State.writeStop
  split
  · exact ⟨rfl, rfl⟩
  · split
    · exact ⟨rfl, rfl⟩
    · exact ⟨rfl, rfl⟩
    · exact latchFaultIs_stopPart s

theorem latchFaultIs_direct {t : State} {g : State → Bool} {f : State → State} (runs : s.direct dt g f = .next t)
    (act : ∀ u : State, (f u).latchFaultIs u.exm.latch u.exm.fault) : t.latchFaultIs s.exm.latch s.exm.fault := by
  rw [← exm_advance dt s]
  unfold State.direct at runs
  cases runs
  exact keeps_ite (act _) ⟨rfl, rfl⟩

/-- START and STOP leave the clock latch and the fault record. -/
theorem latchFaultIs_startStop {t : State} (runs : exec (.start dt) s = .next t ∨ exec (.stop dt) s = .next t) :
    t.latchFaultIs s.exm.latch s.exm.fault := by
  rcases runs with runs | runs <;> unfold exec at runs
  · exact latchFaultIs_direct runs latchFaultIs_startPart
  · exact latchFaultIs_direct runs latchFaultIs_writeStop

/-! ### Takes (R184, R185) -/

/-- FAULT stays among the bits PENDING, whatever bit is set beside it. -/
theorem faultPending_or {m : BitVec 9} (n : BitVec 9) (h : m &&& areaMask .fault ≠ 0) : (m ||| n) &&& areaMask .fault ≠ 0 := by
  have bit : ∀ k : BitVec 9, k &&& areaMask .fault ≠ 0 ↔ k.getLsbD 7 = true := by decide
  rw [bit] at h ⊢
  rw [BitVec.getLsbD_or, h, Bool.true_or]

theorem blockSteady_faultPending : BlockSteady fun t => t.exm.attn &&& areaMask .fault ≠ 0 :=
  blockSteady_of (Q := fun e _ _ => e.attn &&& areaMask .fault ≠ 0) (faultPending_or _)

/-- A take of FAULT clears a held record that is acknowledged, and raises FAULT (R184). -/
theorem takeFault_of_acked (held : s.exm.fault.held = true) (acked : s.faultAck = s.exm.fault.stamp) :
    s.takeFault = (s.scanClear .fault).faultUpd FaultRecord.cleared := by
  refine if_pos ?_
  rw [Bool.and_eq_true, beq_iff_eq]
  exact ⟨held, acked⟩

/-- Otherwise it clears the bit of the mask alone. -/
theorem takeFault_of_unacked (stands : s.exm.fault.held = false ∨ s.faultAck ≠ s.exm.fault.stamp) :
    s.takeFault = s.scanClear .fault := by
  refine if_neg fun clears => ?_
  rw [Bool.and_eq_true, beq_iff_eq] at clears
  rcases stands with unheld | unacked
  · exact absurd (clears.1.symm.trans unheld) (by simp)
  · exact unacked clears.2

end Sys2Proof.Machine

open Sys2Proof Sys2Proof.Machine

/-- Settles O17: the lanes of a write to a host-written word are written byte by byte, and a part held in reset takes none. -/
theorem hostWriteReplacesEnabledBytes : Obligations.HostWriteReplacesEnabledBytes := by
  intro s dt word lanes data ok
  refine ⟨exec_hostMemoryWrite_of_held, fun alive hosts => ⟨_, exec_hostMemoryWrite rfl alive, ?_⟩⟩
  have wf : memWf s.exm.mem = true := ((Bool.and_eq_true _ _).mp ok).1
  rw [hostWrite_of_hosts _ lanes data hosts, exm_advance]
  exact ⟨rfl, Laws.Memory.memRead_memWriteLanes wf _ lanes data⟩

/-- Settles O18: a write that no host-written word takes is dropped, and the fault record says what a drop does. -/
theorem droppedWriteIsRecorded : Obligations.DroppedWriteIsRecorded := by
  intro s u dt word lanes data time alive other enabled
  have fault : s.exm.fault = u.exm.fault := by rw [time, exm_advance]
  rw [exec_hostMemoryWrite time alive, hostWrite_of_dropped u data other enabled, fault]
  refine ⟨fun unheld => ?_, fun held room => ?_, fun held full => ?_⟩
  · rw [dropWrite_of_unheld _ lanes unheld]
    rfl
  · rw [dropWrite_of_held _ lanes held, if_pos room]
    rfl
  · rw [dropWrite_of_held _ lanes held, if_neg (Nat.not_lt.2 full)]

/-- Settles O19: bit by bit, of the enabled lanes alone; the whole writes are those of every lane. -/
theorem registerWrites : Obligations.RegisterWrites := by
  intro s u dt word lanes data time alive
  subst time
  have pending (w : LaneWord) := execPendingWrite_eq dt w alive
  have enable (w : LaneWord) := execEnableWrite_eq dt w alive
  refine ⟨⟨_, pending _, rfl, fun i => ?_⟩, ⟨_, enable _, rfl, fun i inMask => ?_⟩, ?_, ?_, ?_⟩
  · dsimp only
    rw [BitVec.getLsbD_and, BitVec.getLsbD_not]
    by_cases inMask : i < 9
    · rw [getLsbD_areasWritten lanes data inMask]
      simp only [inMask, decide_true, Bool.true_and]
    · rw [BitVec.getLsbD_of_ge _ i (Nat.not_lt.1 inMask)]
      rfl
  · dsimp only
    rw [BitVec.getLsbD_or, BitVec.getLsbD_and, BitVec.getLsbD_not, getLsbD_laneAreas lanes inMask,
      getLsbD_areasWritten lanes data inMask]
    cases lanes.getLsbD (i / 8) <;> simp [inMask]
  · refine (pending ⟨15, data⟩).trans ?_
    rw [areasWritten_whole]
  · refine (enable ⟨15, data⟩).trans ?_
    rw [areasWritten_whole, laneAreas_whole]
    simp
  · exact direct_of_due (f := id) (alive_advance dt alive)

/-- Settles O21: the read latches, time passes as the power state has it, a reset clears the latch, START and STOP leave it. -/
theorem clockReads : Obligations.ClockReads := by
  refine ⟨fun s u dt time alive => ⟨?_, ?_, ?_, ?_⟩, fun s t dt b reset => ?_, fun s t dt runs => (latchFaultIs_startStop runs).1,
    fun s => rfl⟩
  · rw [exec_clockLoRead time alive, ofNat_mod_two_pow 16, ofNat_mod_two_pow 32]
  · exact fun asleep => time ▸ now_advance_of_asleep asleep
  · exact fun awake fits => time ▸ now_advance_of_awake alive awake fits
  · change s.clockHi = _
    rw [State.clockHi, if_neg (by simp [alive])]
  · rcases reset with on | pin | ⟨alive, soft⟩
    · rw [exec_powerOn] at on
      cases on
      rfl
    · rw [exec_resetPinAssert] at pin
      cases pin
      rfl
    · rw [exec_softReset dt b alive] at soft
      cases soft
      rfl

/-- Settles O27: the take by whether the held record is acknowledged, the next write by whether one is held. -/
theorem faultTakeClears : Obligations.FaultTakeClears := by
  refine ⟨fun s u dt time working due => ⟨_, block_of_passed time working due, ?_⟩, fun s off lanes held room => ?_,
    fun s off lanes unheld => ?_, fun s t dt runs => (latchFaultIs_startStop runs).2⟩
  · obtain ⟨-, taken, -, -⟩ := takeFault_fault u
    have outer := (outer_retried u.takeFault).trans taken
    have fault : u.takeFault.retried.exm.fault = u.takeFault.exm.fault := congrArg Outer.fault outer
    rw [exm_finish, rpl_finish]
    refine ⟨congrArg Outer.scan outer, fun held acked => ?_, fun stands => ?_, congrArg Outer.total outer,
      congrArg Outer.silent outer, (congrArg Outer.mem outer).trans (mem_passed time : u.exm.mem = s.exm.mem)⟩
    · rw [fault, takeFault_of_acked held acked]
      refine ⟨rfl, blockSteady_faultPending.retried ?_⟩
      have bit : ∀ m : BitVec 9, (m ||| areaMask .fault) &&& areaMask .fault ≠ 0 := by decide
      exact bit _
    · rw [fault, takeFault_of_unacked stands]
      rfl
  · rw [dropWrite_of_held off lanes held, if_pos room]
    rfl
  · rw [dropWrite_of_unheld off lanes unheld]
    exact ⟨rfl, rfl⟩

/-- Settles O28: the act clears the bit, and of what follows it the contexts' activity and the power controller alone remain. -/
theorem noEffectTakeClearsItsBit : Obligations.NoEffectTakeClearsItsBit := by
  intro s u dt a time working marks area set
  obtain ⟨unfreed, unleft⟩ := unfreed_of_marksOk marks
  have mark : { u.rpl with left := false } = u.rpl := by rw [← unleft]
  have idle : noEffectArea a = true := by
    rcases area with rfl | rfl | rfl
    · rfl
    · rfl
    · rfl
  have due : (noEffectArea a && u.scanSet a) = true := (Bool.and_eq_true _ _).mpr ⟨idle, set⟩
  refine ⟨_, block_of_passed (g := fun s => noEffectArea a && s.scanSet a) time working due, ?_⟩
  obtain ⟨v, q, ends, -⟩ := finish_frame u (u.scanClear a) unfreed
  rw [ends]
  exact ⟨rfl, mark, rfl, rfl, rfl, rfl, rfl⟩

end

section
/-! SUPPORT. What every command leaves of the part between two steps (R22, R171): the queue as it finds it, and the marks of the step
clear where it finds them clear. A command ends with what clears the marks (what follows the blocks' acts, STOP, a reset), or it
writes neither mark. -/

namespace Sys2Proof.Machine

/-- A step with a command waiting runs it on the state with the queue's rest. -/
theorem step_of_command {s : State} {c : Instr} {q : List Instr} (h : s.pending = c :: q) :
    step s = exec c { s with pending := q } := by
  unfold step
  rw [h]

/-- From `s` to `t` the queue stands, and marks that were clear are clear. -/
structure Settled (s t : State) : Prop where
  queue : t.pending = s.pending
  marks : s.marksOk = true → t.marksOk = true

theorem Settled.trans {s t u : State} (h : Settled s t) (g : Settled t u) : Settled s u :=
  ⟨g.queue.trans h.queue, fun clear => g.marks (h.marks clear)⟩

/-- Neither mark is written. -/
theorem settled_of_same {s t : State} (queue : t.pending = s.pending) (freed : t.tmu.freed = s.tmu.freed)
    (left : t.rpl.left = s.rpl.left) : Settled s t := by
  refine ⟨queue, fun clear => ?_⟩
  unfold State.marksOk
  rw [freed, left]
  exact clear

theorem Settled.refl (s : State) : Settled s s := settled_of_same rfl rfl rfl

theorem settled_of_cleared {s t : State} (queue : t.pending = s.pending) (cleared : t.marksOk = true) : Settled s t :=
  ⟨queue, fun _ => cleared⟩

/-! ### The queue through the blocks' acts, and what follows them (R22, R171, R175) -/

/-- No act of the blocks touches the queue. -/
theorem commandSteady_queueIs (q : List Instr) : CommandSteady fun t => t.pending = q where
  txu h := h
  clu h := h
  raise h := h
  counts _ h := h
  rpl _ h := h
  cmu h := h
  mbu h := h
  wait h := h
  ctx _ h := h
  tmu h := h
  sbc h := h
  plan h := h
  scan h := h
  fault h := h
  sampled {s e} h := (congrArg Outer.pending (outer_driftSample s e)).trans h
  napOver {s} h := (State.pending_setPower s .run).trans h

theorem pending_finish (s0 s : State) : (s0.finish s).pending = s.pending := by
  obtain ⟨q, ends⟩ := finish_eq s0 s
  rw [ends]
  exact (commandSteady_queueIs s.pending).retried rfl

theorem marksOk_finish (s0 s : State) : (s0.finish s).marksOk = true := by
  obtain ⟨q, ends⟩ := finish_eq s0 s
  rw [ends]
  rfl

theorem settled_finish {s s0 t : State} (queue : t.pending = s.pending) : Settled s (s0.finish t) :=
  settled_of_cleared ((pending_finish s0 t).trans queue) (marksOk_finish s0 t)

theorem settled_finishEntry {s s0 t : State} (queue : t.pending = s.pending) : Settled s (s0.finishEntry t) := by
  obtain ⟨q, ends⟩ := finishEntry_frame s0 t
  rw [ends]
  exact (settled_finish queue).trans (settled_of_same rfl rfl rfl)

/-! ### Time and the host port (R17, R174, R182) -/

theorem settled_advance (dt : Nat) (s : State) : Settled s (s.advance dt) :=
  settled_of_same (pending_advance dt s) (freed_advance dt s) (congrArg Rpl.left (rpl_advance dt s))

theorem settled_tick (s : State) : Settled s s.tick := by
  unfold State.tick
  split
  · exact .refl s
  · split
    · exact settled_of_same rfl rfl rfl
    · split
      · exact settled_of_same rfl rfl rfl
      · exact settled_of_same rfl rfl rfl

theorem settled_hostWrite (s : State) (word : BitVec 14) (lanes : BitVec 4) (data : Word) :
    Settled s (s.hostWrite word lanes data) := by
  obtain ⟨e, written, -⟩ := hostWrite_frame s word lanes data
  rw [written]
  exact settled_of_same rfl rfl rfl

theorem settled_enterWaking (s : State) (n : Nat) : Settled s (s.enterWaking n) := settled_of_same rfl rfl rfl

theorem settled_setPower (s : State) (p : Power) : Settled s (s.setPower p) := by
  obtain ⟨q, frame, -⟩ := setPower_frame s p
  rw [frame]
  exact settled_of_same rfl rfl rfl

theorem settled_writeScan (s : State) (w : LaneWord) : Settled s (s.writeScan w) := by
  have scanned : Settled s (s.scanned w) := settled_of_same rfl rfl rfl
  exact keeps_ite (P := Settled s) (scanned.trans (settled_enterWaking _ _)) scanned

/-! ### Resets, START, the entries and STOP (R175, R192 to R194) -/

theorem settled_resetPart (s : State) : Settled s s.resetPart := settled_of_cleared rfl rfl

theorem settled_startPart (s : State) : Settled s s.startPart := by
  by_cases version : s.setupVersion = 1
  · obtain ⟨p, n, m, q, starts⟩ := startPart_frame version
    rw [starts]
    exact settled_of_same rfl rfl rfl
  · rw [State.startPart, if_neg version]
    exact settled_of_same rfl rfl rfl

theorem pending_enterRunning (s : State) : s.enterRunning.pending = s.pending := by
  have C := commandSteady_queueIs s.pending
  exact C.plan (v := s.enterRunning.rpl) (C.takeHeld (C.entrySearches (s := s) rfl))

/-- STOP leaves the queue, and clears the marks itself. -/
theorem stopPart_ends (s : State) : s.stopPart.pending = s.pending ∧ s.stopPart.marksOk = true := by
  have C := commandSteady_queueIs s.pending
  have queue := C.listsCleared (C.blocksStopped (s := s) rfl)
  rw [stopPart_eq]
  generalize s.blocksStopped.listsCleared = t at queue ⊢
  obtain ⟨q, -, -, stops⟩ := partStopped_frame t
  rw [stops]
  exact ⟨queue, rfl⟩

theorem settled_writeStop (s : State) : Settled s s.writeStop := by
  have held : Settled s { s with exm := { s.exm with heldStop := true } } := settled_of_same rfl rfl rfl
  unfold State.writeStop
  split
  · exact .refl s
  · split
    · exact held.trans (settled_enterWaking _ _)
    · exact held
    · obtain ⟨queue, cleared⟩ := stopPart_ends s
      exact settled_of_cleared queue cleared

theorem settled_enterRun (s : State) : Settled s s.enterRun := by
  have C := commandSteady_queueIs s.pending
  have caught : s.caughtUp.pending = s.pending := C.caughtUp rfl
  rw [enterRun_eq]
  generalize s.caughtUp = t at caught ⊢
  split
  · obtain ⟨queue, cleared⟩ := stopPart_ends t
    generalize t.stopPart = v at queue cleared ⊢
    exact settled_of_cleared (queue.trans caught) cleared
  · exact settled_finishEntry (C.sampleLine caught)

/-! ### Every command -/

/-- The outcome is a next state that the command leaves settled. -/
def AnswersSettled (s : State) (r : Result) : Prop := ∃ t, r = .next t ∧ Settled s t

theorem answers_direct {s : State} {dt : Nat} {g : State → Bool} {f : State → State} (act : ∀ u : State, Settled u (f u)) :
    AnswersSettled s (s.direct dt g f) :=
  ⟨_, rfl, keeps_ite (P := Settled s) ((settled_advance dt s).trans (act _)) (settled_advance dt s)⟩

theorem answers_block {c : Instr} (s : State) (block : isBlockCommand c = true) : AnswersSettled s (exec c s) := by
  have passed := settled_advance (delay c) s
  rcases blockRun_exec s block with time | ⟨-, v, acts, keeps⟩
  · exact ⟨_, time, passed⟩
  · exact ⟨_, acts, passed.trans (settled_finish (keeps _ (commandSteady_queueIs _) rfl))⟩

/-- Every command answers a next state, which it leaves settled. -/
theorem answers_exec (c : Instr) (s : State) : AnswersSettled s (exec c s) := by
  by_cases block : isBlockCommand c = true
  · exact answers_block s block
  have written (u : State) (e : Exm) : Settled u { u with exm := e } := settled_of_same rfl rfl rfl
  have driven (u : State) (p : Pins) : Settled u { u with pins := p } := settled_of_same rfl rfl rfl
  cases c with unfold exec
  | powerOn | softReset => exact answers_direct settled_resetPart
  | resetPinAssert => exact answers_direct fun u => (settled_resetPart u).trans (driven _ _)
  | resetPinRelease => exact answers_direct fun u => driven u _
  | start => exact answers_direct settled_startPart
  | runningEntry => exact answers_direct fun u => settled_finishEntry (pending_enterRunning u)
  | stop => exact answers_direct settled_writeStop
  | hostMemoryWrite => exact answers_direct fun u => settled_hostWrite u _ _ _
  | ignoredRegisterWrite => exact answers_direct Settled.refl
  | scanWrite => exact answers_direct fun u => settled_writeScan u _
  | pendingWrite | enableWrite => exact answers_direct fun u => written u _
  | clockLoRead => exact answers_direct fun u => keeps_ite (P := Settled u) (written u _) (written u _)
  | txInhibitAssert =>
    refine answers_direct fun u => keeps_ite (P := Settled u) (settled_finish ?_) (driven u _)
    exact (commandSteady_queueIs u.pending).inhibitOn rfl
  | txInhibitRelease =>
    refine answers_direct fun u => keeps_ite (P := Settled u) (settled_finish ?_) (driven u _)
    exact (commandSteady_queueIs u.pending).inhibitOff rfl
  | napEnd => exact answers_direct fun u => settled_setPower u .run
  | slowTimerExpiry => exact answers_direct fun u => settled_enterWaking u _
  | wakingEnd => exact answers_direct settled_enterRun
  | _ => exact absurd rfl block

end Sys2Proof.Machine

open Sys2Proof Sys2Proof.Machine

/-- Settles O1: `step` splits on the queue alone. -/
theorem stepRunsFrontCommand : Obligations.StepRunsFrontCommand :=
  fun _ _ _ => step_of_command rfl

/-- Settles O3: of what every command answers, the part that concerns the queue. -/
theorem everyCommandAnswersNext : Obligations.EveryCommandAnswersNext := by
  intro c s
  obtain ⟨t, answers, settled⟩ := answers_exec c s
  exact ⟨t, answers, settled.queue⟩

/-- Settles O11: a tick writes neither mark, and every command leaves its state settled. -/
theorem stepKeepsMarks : Obligations.StepKeepsMarks := by
  intro s t clear runs
  cases waiting : s.pending with
  | nil =>
    rw [step_of_empty waiting] at runs
    cases runs
    exact (settled_tick s).marks clear
  | cons c q =>
    rw [step_of_command waiting] at runs
    obtain ⟨u, answers, settled⟩ := answers_exec c { s with pending := q }
    rw [answers] at runs
    cases runs
    exact settled.marks clear

end
